-- ==== Sys2Proof/Word.lean ====
section
/-!
DEFINITION. The two word types of the block: a 32-bit word (control registers, addresses, transaction data and
command words: spec/00_scope.md R7) and a byte (buffers and LUT entries).
-/

namespace Sys2Proof

/-- A 32-bit control register, address, command word or transaction datum (R7). -/
abbrev Word := BitVec 32

/-- One byte of a buffer or of the LUT (R7). -/
abbrev Byte := BitVec 8

end Sys2Proof
end

