-- ==== Sys2Proof/Syntax.lean ====
section
/-!
DEFINITION. The five commands of spec/30_encoding.md R91 (the rows of spec/opcode_table.json). No command carries an
operand in its word (R93), so no constructor has a field.
-/

namespace Sys2Proof

/-- The commands of R91, one constructor per row of the opcode table. -/
inductive Instr where
  /-- NOP (R190). -/
  | nop
  /-- GAMMA_BUILD (R110). -/
  | gammaBuild
  /-- SAMPLE (R130). -/
  | sample
  /-- ENCODE (R170). -/
  | encode
  /-- SOFT_RESET (R192). -/
  | softReset
deriving DecidableEq, Repr

end Sys2Proof
end

