-- ==== Sys2Proof/WellFormed.lean ====
section
/-!
DEFINITION. When a command word is well formed: the two checks of spec/30_encoding.md R90 and R91 on the fields OP and
MBZ. Instr itself has no operand, so every term of Instr is well formed; what can be ill formed is a word.
-/

namespace Sys2Proof

/-- The field OP, bits [7:0] of a command word (R90). -/
def Word.op (w : Word) : BitVec 8 := w.extractLsb' 0 8

/-- The field MBZ, bits [31:8] of a command word (R90). -/
def Word.mbz (w : Word) : BitVec 24 := w.extractLsb' 8 24

/-- R90: bits [31:8] must be zero. -/
def Word.mbzIsZero (w : Word) : Bool := Word.mbz w == 0

/-- R91: OP is one of the five opcodes 0x00 to 0x04. -/
def Word.opIsDefined (w : Word) : Bool := decide ((Word.op w).toNat ≤ 4)

/-- A word selects a command only when MBZ = 0 and OP is one of R91's values. -/
def Word.wellFormed (w : Word) : Bool := Word.mbzIsZero w && Word.opIsDefined w

end Sys2Proof
end

