-- ==== Sys2Proof/Decode.lean ====
section
/-!
DEFINITION. The decoder of spec/30_encoding.md R92 (total: every 32-bit word is one of the five commands or illegal),
and the encoder of R90 and R91 after it.
-/

namespace Sys2Proof

/-- Why a word is no command (R94). Both kinds complete with RESULT = ILLEGAL_CMD (R194). -/
inductive Reject where
  /-- Bits [31:8] are not zero. -/
  | mbzNonZero (mbz : BitVec 24)
  /-- MBZ = 0 and OP lies in 0x05 to 0xFF. -/
  | undefinedOpcode (op : BitVec 8)
deriving DecidableEq, Repr

/-- R92: all 32 bits are compared with the five command words of R91; any other word is rejected by name (R94). -/
def decode (w : Word) : Except Reject Instr :=
  if w = 0x00000000#32 then .ok .nop
  else if w = 0x00000001#32 then .ok .gammaBuild
  else if w = 0x00000002#32 then .ok .sample
  else if w = 0x00000003#32 then .ok .encode
  else if w = 0x00000004#32 then .ok .softReset
  else if Word.mbz w = 0 then .error (.undefinedOpcode (Word.op w))
  else .error (.mbzNonZero (Word.mbz w))

/-- The command word that the numbered bits `w` of an instruction of `nbits` bits make: bits above `nbits` are 0. -/
def tableWord (nbits w : Nat) : Word := BitVec.ofNat 32 (w % 2 ^ nbits)

/-- What the decoder reads from the opcode table's numbering of a word: a command is exactly one 32-bit word, written
to CMD in one 4-byte transaction whose data bit i is the word's bit i (R68, R90). -/
def decodeTableWord (nbits w : Nat) : Option Instr := (decode (tableWord nbits w)).toOption

/-- The opcode of a command (R91). -/
def Instr.opcode : Instr → BitVec 8
  | .nop => 0x00
  | .gammaBuild => 0x01
  | .sample => 0x02
  | .encode => 0x03
  | .softReset => 0x04

/-- The command word of a command: MBZ = 0 in bits [31:8], OP in bits [7:0] (R90). -/
def encode (i : Instr) : Word := (0 : BitVec 24) ++ i.opcode

end Sys2Proof
end

