-- ==== Sys2Proof/Config.lean ====
section
/-!
DEFINITION. What an implementation of the block fixes (the two open parameters of spec/00_scope.md R7) and the free
values (what the spec leaves unconstrained). Each is a constant without a body, so that no proof can see its value:
a statement about the model holds for every value of it.
-/

namespace Sys2Proof.Config

/-- P_SRC_BYTES less 3. R7 allows exactly 3 ≤ P_SRC_BYTES ≤ 2^24, 2^24 - 2 = 16777214 values (log 5). -/
opaque srcBytesAbove3 : Fin 16777214

/-- The open parameter P_SRC_BYTES, the size of the SRC buffer in bytes (R7, R39, R43; log 5). -/
def srcBytes : Nat := 3 + srcBytesAbove3.val

/-- The open parameter P_MIN_DELAY_MS, the reset value of MIN_DELAY_MS (R7, R35; log 6). -/
opaque minDelayMs : Word

/-- The free value of the n-th unconstrained byte read: a byte that nothing has written (R81; log 3), or a byte of a
region that the pending command writes (R65; log 4). -/
opaque freeByte : Nat → Byte

/-- The free value that says how many further inputs are taken before the engine performs the command accepted as the
n-th free draw. R76 leaves the order open and R252 says that the engine step does come (log 2). -/
opaque engineDelay : Nat → Nat

end Sys2Proof.Config
end

