-- ==== Sys2Proof/Machine/State.lean ====
section
/-!
DEFINITION. The machine's state as plain data: the tuple of spec/10_state.md R44, and four fields of the model's own
(the inputs to come, the port's answers, and two counters for the free values). State.reset is the state right after a
hardware reset (spec/70_reset_and_hazards.md R240).
-/

namespace Sys2Proof.Machine

/-- The result codes of STATUS.RESULT (R201). Codes 8 to 15 are never produced and have no constructor (log 9). -/
inductive ResultCode where
  | ok
  | configError
  | unsupportedAspect
  | allocError
  | payloadTooLarge
  | lutNotReady
  | lutLocked
  | illegalCmd
deriving DecidableEq, Repr

/-- What can happen at the block's two interfaces (R6), and the host script's POLL (R96), which repeats a read. -/
inductive Input where
  /-- The transaction read(a, n) (R60). -/
  | read (a : Word) (n : Nat)
  /-- The transaction write(a, n, d) (R60). -/
  | write (a : Word) (n : Nat) (d : Word)
  /-- Repeat read(STATUS, 4) until bit 0 reads 0 (R96). -/
  | poll
  /-- The reset input is asserted (R240). -/
  | reset
deriving DecidableEq, Repr

/-- The response of a transaction (R60). -/
inductive Resp where
  | ok
  | err
deriving DecidableEq, Repr

/-- What the port gives back for one transaction (R60): a response, and the data where it was a read. -/
structure Reply where
  resp : Resp
  data : Option Word
deriving DecidableEq, Repr

/-- The bytes of the LUT, FRAME, PKT and SRC that have been written since the last hardware reset, keyed by host
address (R67). An address that is not listed has not been written: it has no value, and each read of it draws a free
byte (R81; log 3). The form is canonical when the addresses strictly rise (Memory.wf in Machine/Ops.lean). -/
abbrev Memory := List Host.Cell

/-- The complete state (R44), and after it the model's own four fields. The dimension registers hold their defined bits
[15:0] alone: bits [31:16] read 0 and ignore writes (R27 to R30; log 7). -/
structure State where
  srcWidth : BitVec 16
  srcHeight : BitVec 16
  matWidth : BitVec 16
  matHeight : BitVec 16
  corrR : Word
  corrG : Word
  corrB : Word
  brightness : Word
  gammaR : Word
  gammaG : Word
  gammaB : Word
  srcDelayCs : Word
  minDelayMs : Word
  payloadLen : Word
  frameDelayMs : Word
  pktLen : Word
  busy : Bool
  lutValid : Bool
  result : ResultCode
  cmdOvr : Bool
  wrBusy : Bool
  pending : Word
  mem : Memory
  /-- The model's own: what the host and the reset input still do, oldest first (log 1). -/
  inputs : List Input
  /-- The model's own: what the port has answered, oldest first (log 1). -/
  replies : List Reply
  /-- The model's own: how many inputs are still taken before the engine moves (log 2). -/
  engineWait : Nat
  /-- The model's own: how many free values have been drawn (log 3). -/
  freeIx : Nat
deriving DecidableEq, Repr

/-- Why the machine stops with a fault: nothing does. A command that fails reports a result code and the engine goes
on (R200), an illegal transaction gets the response ERR, and there is no other way to fault (R61). The type has no
constructor. -/
inductive Fault where
deriving DecidableEq, Repr

/-- Why a step has no meaning. -/
inductive Refusal where
  /-- Raised only by an arm of exec whose instruction has no meaning yet; no arm is left so. Safe: it stops. -/
  | notModelled (mnemonic : String)
deriving DecidableEq, Repr

/-- The state right after a hardware reset (R23, R240): every control register at its reset value, STATUS and `pending`
zero, and no byte of a buffer or of the LUT written. MIN_DELAY_MS takes the open parameter P_MIN_DELAY_MS. -/
def State.reset : State where
  srcWidth := 0
  srcHeight := 0
  matWidth := 0
  matHeight := 0
  corrR := 0x3F800000
  corrG := 0x3F800000
  corrB := 0x3F800000
  brightness := 0x3F000000
  gammaR := 0x3F800000
  gammaG := 0x3F800000
  gammaB := 0x3F800000
  srcDelayCs := 0
  minDelayMs := Config.minDelayMs
  payloadLen := 0
  frameDelayMs := 0
  pktLen := 0
  busy := false
  lutValid := false
  result := .ok
  cmdOvr := false
  wrBusy := false
  pending := 0
  mem := []
  inputs := []
  replies := []
  engineWait := 0
  freeIx := 0

end Sys2Proof.Machine
end

