-- ==== Sys2Proof/Machine/Flags.lean ====
section
/-!
DEFINITION. The STATUS register: its layout and its write-one-to-clear bits (spec/10_state.md R25), and the result
codes' numbers (spec/60_exceptions.md R201).
-/

namespace Sys2Proof.Machine

/-- The number of a result code in STATUS[7:4] (R201). -/
def ResultCode.code : ResultCode → BitVec 4
  | .ok => 0
  | .configError => 1
  | .unsupportedAspect => 2
  | .allocError => 3
  | .payloadTooLarge => 4
  | .lutNotReady => 5
  | .lutLocked => 6
  | .illegalCmd => 7

/-- STATUS as the host reads it (R25): reserved [31:10], WR_BUSY [9], CMD_OVR [8], RESULT [7:4], reserved [3:2],
LUT_VALID [1], BUSY [0]. -/
def State.statusWord (s : State) : Word :=
  (0 : BitVec 22) ++ BitVec.ofBool s.wrBusy ++ BitVec.ofBool s.cmdOvr ++ s.result.code ++ (0 : BitVec 2)
    ++ BitVec.ofBool s.lutValid ++ BitVec.ofBool s.busy

/-- A host write of d to STATUS (R25): d[8] = 1 clears CMD_OVR, d[9] = 1 clears WR_BUSY, every other bit is ignored. -/
def State.statusWrite (s : State) (d : Word) : State :=
  { s with cmdOvr := s.cmdOvr && !d.getLsbD 8, wrBusy := s.wrBusy && !d.getLsbD 9 }

end Sys2Proof.Machine
end

