-- ==== Sys2Proof/Machine/Map.lean ====
section
/-!
DEFINITION. The address map: the control registers and their offsets (spec/10_state.md R23), and the regions with their
places, sizes and host access (spec/20_memory.md R67).
-/

namespace Sys2Proof.Machine

/-- The control registers of R23. -/
inductive Csr where
  | id | status | cmd
  | srcWidth | srcHeight | matWidth | matHeight
  | corrR | corrG | corrB | brightness
  | gammaR | gammaG | gammaB
  | srcDelayCs | minDelayMs | frameDelayMs
  | payloadLen | pktLen
  | capSrcBytes | capFrameBytes
deriving DecidableEq, Repr

/-- Every control register once, in the order of its offset (R23). -/
def Csr.all : List Csr :=
  [.id, .status, .cmd, .srcWidth, .srcHeight, .matWidth, .matHeight, .corrR, .corrG, .corrB, .brightness,
   .gammaR, .gammaG, .gammaB, .srcDelayCs, .minDelayMs, .frameDelayMs, .payloadLen, .pktLen, .capSrcBytes,
   .capFrameBytes]

/-- The byte offset of a control register from the block base (R23). -/
def Csr.offset : Csr → Nat
  | .id => 0x00
  | .status => 0x04
  | .cmd => 0x08
  | .srcWidth => 0x0C
  | .srcHeight => 0x10
  | .matWidth => 0x14
  | .matHeight => 0x18
  | .corrR => 0x1C
  | .corrG => 0x20
  | .corrB => 0x24
  | .brightness => 0x28
  | .gammaR => 0x2C
  | .gammaG => 0x30
  | .gammaB => 0x34
  | .srcDelayCs => 0x38
  | .minDelayMs => 0x3C
  | .frameDelayMs => 0x40
  | .payloadLen => 0x44
  | .pktLen => 0x48
  | .capSrcBytes => 0x4C
  | .capFrameBytes => 0x50

/-- The control register at a byte offset; offsets 0x54 to 0xFC hold none (R23). -/
def Csr.ofOffset (off : Nat) : Option Csr := Csr.all.find? fun r => r.offset == off

/-- The regions of R67. -/
inductive Region where
  | csr | lutR | lutG | lutB | frame | pkt | src
deriving DecidableEq, Repr

/-- Every region once, in the order of its address (R67). -/
def Region.all : List Region := [.csr, .lutR, .lutG, .lutB, .frame, .pkt, .src]

/-- The first address of a region; the block base is 0x0000_0000 (R67). -/
def Region.base : Region → Nat
  | .csr => 0x00000000
  | .lutR => 0x00001000
  | .lutG => 0x00001100
  | .lutB => 0x00001200
  | .frame => 0x00010000
  | .pkt => 0x00020000
  | .src => 0x01000000

/-- FRAME holds 65535 bytes (R7, R43). -/
def frameBytes : Nat := 65535

/-- PKT holds 65545 bytes (R7, R43). -/
def pktBytes : Nat := 65545

/-- The size of a region in bytes; SRC holds P_SRC_BYTES (R67). -/
def Region.size : Region → Nat
  | .csr => 256
  | .lutR => 256
  | .lutG => 256
  | .lutB => 256
  | .frame => frameBytes
  | .pkt => pktBytes
  | .src => Config.srcBytes

/-- The bytes a to a+n-1 all lie within the region (R61). -/
def Region.contains (r : Region) (a n : Nat) : Bool := decide (r.base ≤ a ∧ a + n ≤ r.base + r.size)

/-- The region that holds the bytes a to a+n-1, if one does; every other address is unmapped (R67). -/
def Region.find (a n : Nat) : Option Region := Region.all.find? fun r => r.contains a n

/-- The host may only read the LUT regions and PKT (R61, R67). -/
def Region.readOnly : Region → Bool
  | .lutR | .lutG | .lutB | .pkt => true
  | .csr | .frame | .src => false

/-- The region is a store of bytes: every region but CSR (R20, R67). -/
def Region.holdsBytes : Region → Bool
  | .csr => false
  | .lutR | .lutG | .lutB | .frame | .pkt | .src => true

/-- The address belongs to the LUT, FRAME, PKT or SRC (R67). -/
def isStorage (a : Nat) : Bool := Region.all.any fun r => r.holdsBytes && r.contains a 1

/-- The host address of lut[c][i]: the three LUT regions follow one another (R67). -/
def lutAddr (c : Fin 3) (i : Nat) : Nat := Region.lutR.base + 256 * c.val + i

/-- The regions a command writes (R65, R67). -/
def writesRegion : Instr → Region → Bool
  | .gammaBuild, .lutR => true
  | .gammaBuild, .lutG => true
  | .gammaBuild, .lutB => true
  | .sample, .frame => true
  | .encode, .pkt => true
  | _, _ => false

end Sys2Proof.Machine
end

