-- ==== Sys2Proof/Machine/Ops.lean ====
section
/-!
DEFINITION. The named operations over memory and registers: reading and writing bytes of the storage regions
(spec/20_memory.md R81), completing a command with a result code (spec/00_scope.md R10, the block's whole error
mechanism), accepting a command (spec/10_state.md R26), the two resets (spec/70_reset_and_hazards.md R240,
spec/43_control.md R192), and the control registers' reads and writes (spec/10_state.md R23 to R45).
-/

namespace Sys2Proof.Machine

/-- The byte held at an address: none where nothing has written it since the last hardware reset. This is what an
unlisted address reads as: no byte of its own (R81; log 3). -/
def Memory.get? : Memory → Nat → Option Byte
  | [], _ => none
  | (a', b) :: rest, a => if a' = a then some b else Memory.get? rest a

/-- Bytes laid out from an address upwards. -/
def Memory.cells (base : Nat) : List Byte → Memory
  | [] => []
  | b :: bs => (base, b) :: Memory.cells (base + 1) bs

/-- The memory after the bytes `bs` are written from `base` upwards: what lies below and above them stays, so the
addresses rise again. -/
def Memory.store (m : Memory) (base : Nat) (bs : List Byte) : Memory :=
  m.filter (fun c => decide (c.1 < base)) ++ (Memory.cells base bs
    ++ m.filter (fun c => decide (base + bs.length ≤ c.1)))

/-- The canonical form: addresses strictly rise. A written byte never equals what an unlisted address reads as, which
is no byte, so nothing else is asked. -/
def Memory.wf : Memory → Bool
  | [] => true
  | (a, _) :: rest => rest.all (fun c => decide (a < c.1)) && Memory.wf rest

/-- The k-th byte a step reads, at address a: the byte held there, or the k-th free value from now on where nothing
has written it (R81; log 3). -/
def State.byteAt (s : State) (a k : Nat) : Byte :=
  match Memory.get? s.mem a with
  | some b => b
  | none => Config.freeByte (s.freeIx + k)

/-- n reads have taken their free values: later reads draw new ones (R81: drawn independently for each read). -/
def State.draw (s : State) (n : Nat) : State := { s with freeIx := s.freeIx + n }

/-- Write bytes from a host address upwards. -/
def State.storeAt (s : State) (a : Nat) (bs : List Byte) : State := { s with mem := Memory.store s.mem a bs }

/-- `raise Result(code)`, and with the code OK the end of a command that does not raise (R10, R40): RESULT gets the
code and BUSY is cleared. It changes no other state. -/
def State.finish (s : State) (code : ResultCode) : State := { s with result := code, busy := false }

/-- An accepted CMD write (R26): `pending <- d` and BUSY <- 1. How many inputs come before the engine step is a free
value (R76, R252; log 2). -/
def State.accept (s : State) (d : Word) : State :=
  { s with pending := d, busy := true, engineWait := Config.engineDelay s.freeIx, freeIx := s.freeIx + 1 }

/-- What both resets do to the registers (R192, R240): every RW register, FRAME_DELAY_MS and PKT_LEN take their reset
values of R23, and LUT_VALID, CMD_OVR and WR_BUSY are cleared. -/
def State.resetRegisters (s : State) : State :=
  { s with
    srcWidth := State.reset.srcWidth
    srcHeight := State.reset.srcHeight
    matWidth := State.reset.matWidth
    matHeight := State.reset.matHeight
    corrR := State.reset.corrR
    corrG := State.reset.corrG
    corrB := State.reset.corrB
    brightness := State.reset.brightness
    gammaR := State.reset.gammaR
    gammaG := State.reset.gammaG
    gammaB := State.reset.gammaB
    srcDelayCs := State.reset.srcDelayCs
    minDelayMs := State.reset.minDelayMs
    payloadLen := State.reset.payloadLen
    frameDelayMs := 0
    pktLen := 0
    lutValid := false
    cmdOvr := false
    wrBusy := false }

/-- The hardware reset (R240), in any state: the registers, STATUS = 0, `pending` = 0, and every byte of SRC, FRAME, PKT
and the LUT unwritten. A pending command is discarded. What the host still does and what the port has answered are not
the block's state and stay (log 1). -/
def State.hardReset (s : State) : State :=
  { s.resetRegisters with result := .ok, busy := false, pending := 0, mem := [], engineWait := 0 }

/-- A control register as the host reads it (R23, R64): CMD is write-only and reads 0 (R26), ID and the two capacity
registers are constants (R24, R39), reserved bits read 0. -/
def State.csrRead (s : State) : Csr → Word
  | .id => 0x44445001
  | .status => s.statusWord
  | .cmd => 0
  | .srcWidth => s.srcWidth.setWidth 32
  | .srcHeight => s.srcHeight.setWidth 32
  | .matWidth => s.matWidth.setWidth 32
  | .matHeight => s.matHeight.setWidth 32
  | .corrR => s.corrR
  | .corrG => s.corrG
  | .corrB => s.corrB
  | .brightness => s.brightness
  | .gammaR => s.gammaR
  | .gammaG => s.gammaG
  | .gammaB => s.gammaB
  | .srcDelayCs => s.srcDelayCs
  | .minDelayMs => s.minDelayMs
  | .frameDelayMs => s.frameDelayMs
  | .payloadLen => s.payloadLen
  | .pktLen => s.pktLen
  | .capSrcBytes => BitVec.ofNat 32 Config.srcBytes
  | .capFrameBytes => BitVec.ofNat 32 frameBytes

/-- A host write to a control register other than STATUS and CMD while BUSY = 0 (R45): a RW register stores its defined
bits, a RO register ignores the write. STATUS and CMD have rules of their own (R25, R26; Machine/Port.lean). -/
def State.csrWrite (s : State) (r : Csr) (d : Word) : State :=
  match r with
  | .srcWidth => { s with srcWidth := d.setWidth 16 }
  | .srcHeight => { s with srcHeight := d.setWidth 16 }
  | .matWidth => { s with matWidth := d.setWidth 16 }
  | .matHeight => { s with matHeight := d.setWidth 16 }
  | .corrR => { s with corrR := d }
  | .corrG => { s with corrG := d }
  | .corrB => { s with corrB := d }
  | .brightness => { s with brightness := d }
  | .gammaR => { s with gammaR := d }
  | .gammaG => { s with gammaG := d }
  | .gammaB => { s with gammaB := d }
  | .srcDelayCs => { s with srcDelayCs := d }
  | .minDelayMs => { s with minDelayMs := d }
  | .payloadLen => { s with payloadLen := d }
  | .id => s
  | .status => s
  | .cmd => s
  | .frameDelayMs => s
  | .pktLen => s
  | .capSrcBytes => s
  | .capFrameBytes => s

end Sys2Proof.Machine
end

