-- ==== Sys2Proof/Machine/Control.lean ====
section
/-!
DEFINITION. NOP, SOFT_RESET and the illegal words (spec/43_control.md R190 to R194).
-/

namespace Sys2Proof.Machine

/-- NOP (R190): RESULT <- OK, and BUSY is cleared. -/
def execNop (s : State) : Host.Outcome State Fault Refusal := .next (s.finish .ok)

/-- SOFT_RESET (R192): the registers take their reset values, LUT_VALID, CMD_OVR and WR_BUSY are cleared, the bytes of
SRC, FRAME, PKT and the LUT stay. `pending` is not in its list and stays (log 13). -/
def execSoftReset (s : State) : Host.Outcome State Fault Refusal := .next (s.resetRegisters.finish .ok)

/-- An illegal word (R194): RESULT <- ILLEGAL_CMD, BUSY is cleared, nothing else. -/
def execIllegal (s : State) : Host.Outcome State Fault Refusal := .next (s.finish .illegalCmd)

end Sys2Proof.Machine
end

