-- ==== Sys2Proof/Machine/Operands.lean ====
section
/-!
DEFINITION. How a command forms its operands from the control registers (spec/30_encoding.md R93), and the primitives of
spec/00_scope.md R11 and R12: binary32 patterns as exact values, truncation and clamping, all on integers.
-/

namespace Sys2Proof.Machine

/-- The common denominator of every finite binary32 value: 2^149 (R11; log 8). -/
def f32Unit : Nat := 2 ^ 149

/-- A decoded binary32 pattern (R11). A finite value is the exact rational num / 2^149 (log 8); both zeros are 0. -/
inductive F32 where
  | finite (num : Int)
  | infinite (negative : Bool)
  | nan
deriving DecidableEq, Repr

/-- The exponent field e = b[30:23] (R11). -/
def f32Exponent (b : Word) : Nat := (b.extractLsb' 23 8).toNat

/-- The fraction field f = b[22:0] (R11). -/
def f32Fraction (b : Word) : Nat := (b.extractLsb' 0 23).toNat

/-- |f32(b)| in units of 2^-149, for a finite pattern (R11): f for e = 0, and (2^23 + f) × 2^(e-1) for 1 ≤ e ≤ 254. -/
def f32Magnitude (b : Word) : Nat :=
  if f32Exponent b = 0 then f32Fraction b else (2 ^ 23 + f32Fraction b) * 2 ^ (f32Exponent b - 1)

/-- `finite(b)` (R11). -/
def isFinite (b : Word) : Bool := f32Exponent b != 255

/-- `f32(b)` (R11). -/
def f32 (b : Word) : F32 :=
  if isFinite b then .finite (if b.getLsbD 31 then -(f32Magnitude b : Int) else f32Magnitude b)
  else if f32Fraction b = 0 then .infinite (b.getLsbD 31)
  else .nan

/-- The value is not NaN and is below 0 (R11: comparisons are numeric, so -0 is not below 0). -/
def F32.belowZero : F32 → Bool
  | .finite n => decide (n < 0)
  | .infinite negative => negative
  | .nan => false

/-- The value is not NaN and is above 1. -/
def F32.aboveOne : F32 → Bool
  | .finite n => decide ((f32Unit : Int) < n)
  | .infinite negative => !negative
  | .nan => false

/-- The numerator over 2^149 of a finite value. Only a finite value is ever scaled by: SAMPLE and GAMMA_BUILD check it
first (R112, R131), and the value given to the others is never used. -/
def F32.num : F32 → Int
  | .finite n => n
  | .infinite _ => 0
  | .nan => 0

/-- `clampByte(n) = min(255, max(0, n))` (R12). -/
def clampByte (n : Int) : Nat := (min 255 (max 0 n)).toNat

/-- `trunc(v × x)` for a byte or stage value v and a finite binary32 value x: the exact product, toward zero (R12). -/
def truncMul (v : Nat) (x : F32) : Int := Int.tdiv ((v : Int) * x.num) f32Unit

/-- W (R93). -/
def State.opW (s : State) : Nat := s.srcWidth.toNat

/-- H (R93). -/
def State.opH (s : State) : Nat := s.srcHeight.toNat

/-- w (R93). -/
def State.opw (s : State) : Nat := s.matWidth.toNat

/-- h (R93). -/
def State.oph (s : State) : Nat := s.matHeight.toNat

/-- The correction register of channel c: 0 is R, 1 is G, 2 is B (R9, R31). -/
def State.corr (s : State) : Fin 3 → Word
  | 0 => s.corrR
  | 1 => s.corrG
  | 2 => s.corrB

/-- The gamma register of channel c (R9, R33). -/
def State.gamma (s : State) : Fin 3 → Word
  | 0 => s.gammaR
  | 1 => s.gammaG
  | 2 => s.gammaB

/-- cs, the two's-complement value of SRC_DELAY_CS (R93). -/
def State.opCs (s : State) : Int := s.srcDelayCs.toInt

/-- L, the unsigned value of PAYLOAD_LEN (R93). -/
def State.opL (s : State) : Nat := s.payloadLen.toNat

end Sys2Proof.Machine
end

