-- ==== Sys2Proof/Machine/Encode.lean ====
section
/-!
DEFINITION. ENCODE (spec/42_encode.md R170 to R175): the length check, the 10-byte DDP header, the payload copy.
-/

namespace Sys2Proof.Machine

/-- The 10-byte header for a payload of L bytes: `41 00 03 00 00 00 00 00 L[15:8] L[7:0]` (R172). -/
def ddpHeader (L : Word) : List Byte :=
  [0x41, 0x00, 0x03, 0x00, 0x00, 0x00, 0x00, 0x00, L.extractLsb' 8 8, L.extractLsb' 0 8]

/-- The packet: the header and FRAME bytes 0 to L-1 unmodified (R173). FRAME byte k is the k-th byte the command
reads. -/
def State.packet (s : State) : List Byte :=
  ddpHeader s.payloadLen ++ (List.range s.opL).map fun k => s.byteAt (Region.frame.base + k) k

/-- ENCODE (R170): PAYLOAD_TOO_LARGE above 65535 (R171), else the packet and PKT_LEN = 10 + L (R173). -/
def execEncode (s : State) : Host.Outcome State Fault Refusal :=
  if 65535 < s.opL then .next (s.finish .payloadTooLarge)
  else .next ({ (s.storeAt Region.pkt.base s.packet).draw s.opL with pktLen := 10 + s.payloadLen }.finish .ok)

end Sys2Proof.Machine
end

