-- ==== Sys2Proof/Machine/Gamma.lean ====
section
/-!
DEFINITION. GAMMA_BUILD (spec/40_gamma.md R110 to R117). GammaRef is computed exactly, on integers: the real power is
never needed, because n - 1/2 ≤ 255 × (i/255)^(a/q) is a comparison of integers (log 8).
-/

namespace Sys2Proof.Machine

/-- The exponent g = f32(b) of a legal pattern in lowest terms: g = numerator / denominator (R11). -/
def gammaNum (b : Word) : Nat := f32Magnitude b / Nat.gcd (f32Magnitude b) f32Unit

/-- The denominator of g in lowest terms, a power of two. -/
def gammaDen (b : Word) : Nat := f32Unit / Nat.gcd (f32Magnitude b) f32Unit

/-- n - 1/2 ≤ 255 × (i/255)^(a/q), for n ≥ 1: both sides raised to the power q and cleared of denominators (R114). -/
def gammaReaches (a q i n : Nat) : Bool := decide ((2 * n - 1) ^ q * 255 ^ a ≤ i ^ a * 510 ^ q)

/-- The greatest n below lo + 2^bits that `p` holds for, where p holds up to some n and not above it; lo if there is
none above lo. -/
def greatestBelow (p : Nat → Bool) : Nat → Nat → Nat
  | 0, lo => lo
  | bits + 1, lo => greatestBelow p bits (if p (lo + 2 ^ bits) then lo + 2 ^ bits else lo)

/-- roundHalfUp(255 × (i/255)^(a/q)), at most 255: the greatest n with n - 1/2 ≤ 255 × (i/255)^(a/q) (R12, R114). -/
def gammaRound (a q i : Nat) : Nat := greatestBelow (gammaReaches a q i) 8 0

/-- GammaRef(f32(b), i) for a legal exponent pattern b (R114). -/
def gammaRef (b : Word) (i : Nat) : Nat := gammaRound (gammaNum b) (gammaDen b) i

/-- The exponent is legal: finite and > 0 (R112). -/
def gammaLegal (b : Word) : Bool := isFinite b && !b.getLsbD 31 && f32Magnitude b != 0

/-- The 768 entries of the LUT in the order of their addresses; channel c uses only exponent g[c] (R113). -/
def State.lutBytes (s : State) : List Byte :=
  (List.range 768).map fun k => BitVec.ofNat 8 (gammaRef (s.gamma (Fin.ofNat 3 (k / 256))) (k % 256))

/-- GAMMA_BUILD (R110): LUT_LOCKED first (R111), then the three exponents (R112), then the whole LUT (R113). -/
def execGammaBuild (s : State) : Host.Outcome State Fault Refusal :=
  if s.lutValid then .next (s.finish .lutLocked)
  else if gammaLegal s.gammaR && gammaLegal s.gammaG && gammaLegal s.gammaB then
    .next ({ s.storeAt (lutAddr 0 0) s.lutBytes with lutValid := true }.finish .ok)
  else .next (s.finish .configError)

end Sys2Proof.Machine
end

