-- ==== Sys2Proof/Machine/Sample.lean ====
section
/-!
DEFINITION. SAMPLE (spec/41_sample.md R130 to R146): the checks in their order, the point sampler, the three-stage colour
pipeline, the delay and the payload length.
-/

namespace Sys2Proof.Machine

/-- BRIGHTNESS is NaN, below 0 or above 1 (R131). -/
def brightnessIllegal (b : Word) : Bool := f32 b == .nan || (f32 b).belowZero || (f32 b).aboveOne

/-- 50 × |W × h − w × H| > H × h (R133). -/
def aspectRejected (W H w h : Nat) : Bool := decide (H * h < 50 * ((W * h : Int) - (w * H : Int)).natAbs)

/-- The first check of SAMPLE that fails, in the order of R145, for an SRC buffer of `srcBytes` bytes; none where all
pass (R130 to R134). -/
def sampleCheck (srcBytes : Nat) (s : State) : Option ResultCode :=
  if s.opW = 0 ∨ s.opH = 0 ∨ s.opw = 0 ∨ s.oph = 0 then some .configError
  else if ¬(isFinite s.corrR ∧ isFinite s.corrG ∧ isFinite s.corrB) then some .configError
  else if brightnessIllegal s.brightness then some .configError
  else if s.lutValid = false then some .lutNotReady
  else if aspectRejected s.opW s.opH s.opw s.oph then some .unsupportedAspect
  else if srcBytes < s.opW * s.opH * 3 ∨ frameBytes < s.opw * s.oph * 3 then some .allocError
  else none

/-- floor((2x + 1) × W / (2w)): the source column of matrix column x, and the source row of a matrix row likewise
(R136). -/
def samplePos (W w x : Nat) : Nat := (2 * x + 1) * W / (2 * w)

/-- The SRC offset of channel c of the source pixel that matrix pixel (x, y) reads (R70, R136). -/
def State.srcOffset (s : State) (x y : Nat) (c : Fin 3) : Nat :=
  (samplePos s.opH s.oph y * s.opW + samplePos s.opW s.opw x) * 3 + c.val

/-- Stage 1, colour correction (R139). -/
def stage1 (v : Nat) (corr : Word) : Nat := clampByte (truncMul v (f32 corr))

/-- Stage 2, brightness (R140). -/
def stage2 (s1 : Nat) (brightness : Word) : Nat := clampByte (truncMul s1 (f32 brightness))

/-- The number of bytes of the frame, w × h × 3 (R144). -/
def State.frameLen (s : State) : Nat := s.opw * s.oph * 3

/-- The source byte v that FRAME byte k is computed from: k = (y × w + x) × 3 + c (R71, R130). It is the k-th byte the
command reads. -/
def State.sampledByte (s : State) (k : Nat) : Byte :=
  s.byteAt (Region.src.base + s.srcOffset (k / 3 % s.opw) (k / 3 / s.opw) (Fin.ofNat 3 k)) k

/-- The LUT index s2 of FRAME byte k: correction, then brightness (R138 to R140). -/
def State.lutIndex (s : State) (k : Nat) : Nat :=
  stage2 (stage1 (s.sampledByte k).toNat (s.corr (Fin.ofNat 3 k))) s.brightness

/-- FRAME byte k: stage 3, the gamma lookup of its channel (R141, R142). Its LUT read is numbered after the SRC reads;
R132 makes the LUT written here in every state a run reaches (log 3). -/
def State.frameByte (s : State) (k : Nat) : Byte :=
  s.byteAt (lutAddr (Fin.ofNat 3 k) (s.lutIndex k)) (s.frameLen + k)

/-- ResolveDelay(cs, m) (R143): the floor for a delay ≤ 0, else cs × 10 saturated at 2^32 - 1. -/
def resolveDelay (cs : Int) (m : Word) : Word :=
  if cs * 10 ≤ 0 then m else BitVec.ofNat 32 (min (cs * 10).toNat (2 ^ 32 - 1))

/-- What SAMPLE writes once its checks pass (R130, R142 to R144). -/
def State.sampled (s : State) : State :=
  { (s.storeAt Region.frame.base ((List.range s.frameLen).map s.frameByte)).draw (2 * s.frameLen) with
    frameDelayMs := resolveDelay s.opCs s.minDelayMs
    payloadLen := BitVec.ofNat 32 s.frameLen }

/-- SAMPLE for an SRC buffer of `srcBytes` bytes (R130). -/
def sampleWith (srcBytes : Nat) (s : State) : State :=
  match sampleCheck srcBytes s with
  | some code => s.finish code
  | none => s.sampled.finish .ok

/-- SAMPLE (R130), with the block's P_SRC_BYTES. -/
def execSample (s : State) : Host.Outcome State Fault Refusal := .next (sampleWith Config.srcBytes s)

end Sys2Proof.Machine
end

