-- ==== Sys2Proof/Machine/Dispatch.lean ====
section
/-!
DEFINITION. One arm per command of spec/30_encoding.md R91, each a direct call of its meaning.
-/

namespace Sys2Proof.Machine

/-- The engine performs a command (R40, R91). -/
def exec (i : Instr) (s : State) : Host.Outcome State Fault Refusal :=
  match i with
  | .nop => Sys2Proof.Machine.execNop s
  | .gammaBuild => Sys2Proof.Machine.execGammaBuild s
  | .sample => Sys2Proof.Machine.execSample s
  | .encode => Sys2Proof.Machine.execEncode s
  | .softReset => Sys2Proof.Machine.execSoftReset s

end Sys2Proof.Machine
end

