-- ==== Sys2Proof/Machine/Port.lean ====
section
/-!
DEFINITION. The host port (spec/20_memory.md R60 to R68): which transactions are legal, what a legal read returns and
what a legal write does, idle and busy; and the step of the outside world, which takes the next input.
-/

namespace Sys2Proof.Machine

/-- What a legal transaction reaches: one control register, or bytes of a storage region. -/
inductive Target where
  | register (r : Csr)
  | bytes (r : Region)
deriving DecidableEq, Repr

/-- The legality test of R61, clause by clause: the size, the alignment, one region, the CSR rule, the read-only
regions. None: the transaction is illegal. -/
def target (a : Word) (n : Nat) (isWrite : Bool) : Option Target :=
  if (n = 1 ∨ n = 2 ∨ n = 4) ∧ a.toNat % n = 0 then
    match Region.find a.toNat n with
    | none => none
    | some .csr => if n = 4 then (Csr.ofOffset a.toNat).map .register else none
    | some r => if isWrite && r.readOnly then none else some (.bytes r)
  else none

/-- The word whose bytes, lowest address first, are the given ones: Σ byte(a+k) × 256^k (R65, R68). -/
def wordOfBytes (bs : List Byte) : Word := BitVec.ofNat 32 (bs.foldr (fun b acc => b.toNat + 256 * acc) 0)

/-- The n bytes of a transaction's data, lowest address first: byte k is d[8k+7:8k] (R62, R68). -/
def bytesOfWord (n : Nat) (d : Word) : List Byte := (List.range n).map fun k => d.extractLsb' (8 * k) 8

/-- BUSY = 1 and the pending command writes the region (R65). -/
def State.beingWritten (s : State) (r : Region) : Bool :=
  s.busy && match decode s.pending with
    | .ok i => writesRegion i r
    | .error _ => false

/-- The k-th byte of a host read of region r at address a + k: a free value while the pending command writes the region
(R65; log 4), else the byte there (R65, R81). -/
def State.hostByte (s : State) (r : Region) (a k : Nat) : Byte :=
  if s.beingWritten r then Config.freeByte (s.freeIx + k) else s.byteAt (a + k) k

/-- read(a, n): the state after it and the reply (R61, R64, R65). An illegal read returns ERR and 0. -/
def hostRead (s : State) (a : Word) (n : Nat) : State × Reply :=
  match target a n false with
  | none => (s, ⟨.err, some 0⟩)
  | some (.register r) => (s, ⟨.ok, some (s.csrRead r)⟩)
  | some (.bytes r) => (s.draw n, ⟨.ok, some (wordOfBytes ((List.range n).map (s.hostByte r a.toNat)))⟩)

/-- write(a, n, d): the state after it and the reply (R61 to R63). An illegal write changes nothing and returns ERR;
while BUSY = 1 only STATUS takes the write, CMD sets CMD_OVR, and every other target sets WR_BUSY. -/
def hostWrite (s : State) (a : Word) (n : Nat) (d : Word) : State × Reply :=
  match target a n true with
  | none => (s, ⟨.err, none⟩)
  | some (.register .status) => (s.statusWrite d, ⟨.ok, none⟩)
  | some (.register .cmd) => (if s.busy then { s with cmdOvr := true } else s.accept d, ⟨.ok, none⟩)
  | some (.register r) => (if s.busy then { s with wrBusy := true } else s.csrWrite r d, ⟨.ok, none⟩)
  | some (.bytes _) =>
    (if s.busy then { s with wrBusy := true } else s.storeAt a.toNat (bytesOfWord n d), ⟨.ok, none⟩)

/-- The port's answer is kept (log 1). -/
def State.answer (p : State × Reply) : State := { p.1 with replies := p.1.replies ++ [p.2] }

/-- One input has been taken: `rest` are left, and the engine waits for one less (log 2). -/
def State.take (s : State) (rest : List Input) : State := { s with inputs := rest, engineWait := s.engineWait - 1 }

/-- The outside world takes one step: the oldest input happens (R76). With no input left nothing happens: the block is
idle and keeps all its state (R210; log 11). POLL stays the oldest input until its read shows BUSY = 0 (R96; log 12). -/
def inputStep (s : State) : State :=
  match s.inputs with
  | [] => s
  | .read a n :: rest => State.answer (hostRead (s.take rest) a n)
  | .write a n d :: rest => State.answer (hostWrite (s.take rest) a n d)
  | .poll :: rest => State.answer (hostRead (s.take (if s.busy then s.inputs else rest)) 4 4)
  | .reset :: rest => (s.take rest).hardReset

/-- It is the engine's turn: BUSY = 1, and either the free number of inputs has been taken or none is left (R40, R76,
R252; log 2). -/
def State.engineTurn (s : State) : Bool := s.busy && (s.engineWait == 0 || s.inputs.isEmpty)

end Sys2Proof.Machine
end

