-- ==== Sys2Proof/Machine/Step.lean ====
section
/-!
DEFINITION. One atomic step of the block and its surroundings (spec/20_memory.md R76): the engine performs the pending
command (spec/10_state.md R40), or the outside world takes its next input.
-/

namespace Sys2Proof.Machine

/-- The engine step (R40): `pending` is decoded (R92) and performed; an illegal word by R194. -/
def engineStep (s : State) : Host.Outcome State Fault Refusal :=
  match decode s.pending with
  | .ok i => exec i s
  | .error _ => execIllegal s

/-- One step: the engine's where it is its turn, else the outside world's. -/
def step (s : State) : Host.Outcome State Fault Refusal :=
  if s.engineTurn then engineStep s else .next (inputStep s)

/-- The state in which the next step performs the command word numbered `w` (log 14): the word is latched in `pending`,
BUSY = 1, and no input comes before the engine. A command enters the block only so (R26): there is no memory it is
fetched from (R21). -/
def State.withFetchWord (s : State) (nbits w : Nat) : State :=
  { s with pending := tableWord nbits w, busy := true, engineWait := 0 }

end Sys2Proof.Machine
end

