-- ==== Sys2Proof/Machine/Playback.lean ====
section
/-!
DEFINITION. The reference host sequencer of spec/60_exceptions.md R215 to R222 (the source's playback driver), which
drives the block through its port. It is host software, outside the block (spec/00_scope.md R4): nothing here is part of
State or of step (log 16).
-/

namespace Sys2Proof.Machine

/-! ## Configuration (R215) -/

/-- The host's command line (R215), its defaults among it: brightness 0.5 and an unbounded loop count. -/
structure HostArgs where
  path : Option String
  brightness : Word := 0x3F000000
  loopCount : Int := -1
  help : Bool := false
deriving DecidableEq, Repr

/-- Before any decoding the host stops with this exit status (R215); none where it goes on. -/
def HostArgs.stops (a : HostArgs) : Option Nat :=
  if a.help then some 0
  else if a.path.isNone then some 1
  else if (f32 a.brightness == .nan || (f32 a.brightness).belowZero || (f32 a.brightness).aboveOne) then some 1
  else if a.loopCount = 0 ∨ (a.loopCount < 0 ∧ a.loopCount ≠ -1) then some 1
  else none

/-! ## Driving the block -/

/-- `WR32` of a control register. -/
def putCsr (s : State) (r : Csr) (d : Word) : State := (hostWrite s (BitVec.ofNat 32 r.offset) 4 d).1

/-- `WR8` of each byte, from a host address upwards. -/
def putBytes (s : State) (base : Nat) : List Byte → State
  | [] => s
  | b :: bs => putBytes (hostWrite s (BitVec.ofNat 32 base) 1 (b.setWidth 32)).1 (base + 1) bs

/-- `RD8` of n bytes from a host address upwards: the state after and the bytes. -/
def takeBytes (s : State) (base : Nat) : Nat → State × List Byte
  | 0 => (s, [])
  | n + 1 =>
    let (s1, r) := hostRead s (BitVec.ofNat 32 base) 1
    let (s2, bs) := takeBytes s1 (base + 1) n
    (s2, (r.data.getD 0).setWidth 8 :: bs)

/-- `RUN`: the CMD write, the engine step, and a POLL, whose reads change nothing (R66, R97). -/
def runCommand (s : State) (i : Instr) : State :=
  match engineStep (putCsr s .cmd (encode i)) with
  | .next t => t
  | .fault _ => s
  | .refused _ => s

/-! ## Extraction (R216) -/

/-- The settings the host writes once. -/
structure HostSettings where
  matWidth : Word
  matHeight : Word
  corrR : Word
  corrG : Word
  corrB : Word
  brightness : Word
  gammaR : Word
  gammaG : Word
  gammaB : Word
deriving DecidableEq, Repr

/-- One frame as the decoder gives it: its size, its rendered bytes and its delay in hundredths of a second. -/
structure DecodedFrame where
  width : Word
  height : Word
  pixels : List Byte
  delay : Word
deriving DecidableEq, Repr

/-- One frame of the FrameSet: the FRAME bytes and the resolved delay. -/
structure StoredFrame where
  pixels : List Byte
  delayMs : Word
deriving DecidableEq, Repr

/-- Step 1 of R216: the settings, then GAMMA_BUILD once. -/
def configure (s : State) (c : HostSettings) : State :=
  let s := putCsr (putCsr s .matWidth c.matWidth) .matHeight c.matHeight
  let s := putCsr (putCsr (putCsr s .corrR c.corrR) .corrG c.corrG) .corrB c.corrB
  let s := putCsr s .brightness c.brightness
  let s := putCsr (putCsr (putCsr s .gammaR c.gammaR) .gammaG c.gammaG) .gammaB c.gammaB
  runCommand s .gammaBuild

/-- Step 3 of R216 for one frame: its size, its bytes, its delay, then SAMPLE. -/
def sampleFrame (s : State) (f : DecodedFrame) : State :=
  let s := putCsr (putCsr s .srcWidth f.width) .srcHeight f.height
  let s := putCsr (putBytes s Region.src.base f.pixels) .srcDelayCs f.delay
  runCommand s .sample

/-- Step 3 of R216 for every frame: any result other than OK discards the whole FrameSet. -/
def extractFrames (s : State) : List DecodedFrame → State × Option (List StoredFrame)
  | [] => (s, some [])
  | f :: fs =>
    let s1 := sampleFrame s f
    if s1.result = .ok then
      let (s2, px) := takeBytes s1 Region.frame.base s1.payloadLen.toNat
      match extractFrames s2 fs with
      | (s3, some rest) => (s3, some (⟨px, s1.frameDelayMs⟩ :: rest))
      | (s3, none) => (s3, none)
    else (s1, none)

/-- Extraction (R216): `decoder` is none where the source cannot be opened. The answer is the FrameSet, or none where
the host exits with status 1: a failed build, a failed open, a failed frame, or no frame at all. -/
def extract (s : State) (c : HostSettings) (decoder : Option (List DecodedFrame)) : State × Option (List StoredFrame) :=
  let s1 := configure s c
  if s1.result = .ok then
    match decoder with
    | none => (s1, none)
    | some fs =>
      match extractFrames s1 fs with
      | (s2, some []) => (s2, none)
      | r => r
  else (s1, none)

/-! ## Playback (R217 to R221) -/

/-- The playback driver's state (R217). -/
inductive PlayState where
  | playing
  | completed
  | aborted
deriving DecidableEq, Repr

/-- What the playback driver holds (R217): the FrameSet, its state, the frame index, the loops finished, the target. -/
structure Playback where
  frames : List StoredFrame
  target : Int
  state : PlayState
  index : Nat
  loops : Nat
deriving DecidableEq, Repr

/-- Initially Playing, index 0, loops 0 (R217). -/
def Playback.start (frames : List StoredFrame) (target : Int) : Playback := ⟨frames, target, .playing, 0, 0⟩

/-- The end of a tick (R218): the next frame, and at the wrap one loop more. -/
def Playback.advance (p : Playback) : Playback :=
  if p.index + 1 = p.frames.length then { p with index := 0, loops := p.loops + 1 } else { p with index := p.index + 1 }

/-- The bounded target is reached: checked before the next frame is encoded (R219). -/
def Playback.targetReached (p : Playback) : Bool := decide (0 ≤ p.target ∧ (p.loops : Int) = p.target)

/-- What one tick gives: the driver, the block, the packet written to the sink and the wait after it in milliseconds. -/
structure Tick where
  host : Playback
  block : State
  packet : Option (List Byte)
  waitMs : Option Word
deriving DecidableEq, Repr

/-- Load the stored frame and encode it (R218): FRAME, then PAYLOAD_LEN, then `RUN ENCODE`. -/
def encodeStored (s : State) (f : StoredFrame) : State :=
  runCommand (putCsr (putBytes s Region.frame.base f.pixels) .payloadLen (BitVec.ofNat 32 f.pixels.length)) .encode

/-- One tick (R218, R219): `sinkOk` says whether the sink takes the packet. Completed and Aborted are terminal. An index
outside the FrameSet, which R217 excludes, aborts. -/
def Playback.tick (p : Playback) (s : State) (sinkOk : Bool) : Tick :=
  match p.state with
  | .completed => ⟨p, s, none, none⟩
  | .aborted => ⟨p, s, none, none⟩
  | .playing =>
    if p.targetReached then ⟨{ p with state := .completed }, s, none, none⟩
    else
      match p.frames[p.index]? with
      | none => ⟨{ p with state := .aborted }, s, none, none⟩
      | some f =>
        let s1 := encodeStored s f
        if s1.result = .ok then
          let (s2, pkt) := takeBytes s1 Region.pkt.base s1.pktLen.toNat
          if sinkOk then ⟨p.advance, s2, some pkt, some f.delayMs⟩ else ⟨{ p with state := .aborted }, s2, none, none⟩
        else ⟨{ p with state := .aborted }, s1, none, none⟩

/-- Ticks one after another, every sink write succeeding: the driver, the block and the output stream, which is the
packets in emission order with nothing between them (R221). -/
def Playback.play (p : Playback) (s : State) : Nat → Playback × State × List (List Byte)
  | 0 => (p, s, [])
  | n + 1 =>
    let t := p.tick s true
    let (p', s', out) := t.host.play t.block n
    (p', s', t.packet.toList ++ out)

/-- The exit status once playback ends (R220): 0 for Completed, and for an unbounded loop that is interrupted; 1 for
Aborted; none while a bounded loop still plays. -/
def Playback.exitStatus (p : Playback) (interrupted : Bool) : Option Nat :=
  match p.state with
  | .completed => some 0
  | .aborted => some 1
  | .playing => if interrupted && decide (p.target = -1) then some 0 else none

end Sys2Proof.Machine
end

