-- ==== Sys2Proof/Machine/Script.lean ====
section
/-!
DEFINITION. The host script syntax of spec/30_encoding.md R96 and the pseudo-statements of R97, as the inputs they stand
for.
-/

namespace Sys2Proof.Machine

/-- How a statement names an address (R96): a register, a region's base plus an offset, or a number. -/
inductive Addr where
  | register (r : Csr)
  | region (r : Region) (off : Nat)
  | number (a : Word)
deriving DecidableEq, Repr

/-- The statements of R96 and the pseudo-statements of R97. -/
inductive Stmt where
  | wr32 (a : Addr) (d : Word)
  | wr16 (a : Addr) (d : Word)
  | wr8 (a : Addr) (d : Word)
  | rd32 (a : Addr)
  | rd16 (a : Addr)
  | rd8 (a : Addr)
  /-- `CMD mnemonic` -/
  | cmd (i : Instr)
  /-- `CMDW word` -/
  | cmdw (w : Word)
  | poll
  /-- `EXPECT expr`: an assertion, with no hardware effect. -/
  | expect (expr : String)
  /-- `RUN mnemonic` (R97) -/
  | run (i : Instr)
  /-- `BYTES region+off, b0, ..., bk` (R97) -/
  | bytes (r : Region) (off : Nat) (bs : List Byte)
  /-- `CLEARSTICKY` (R97) -/
  | clearSticky
deriving DecidableEq, Repr

/-- The address a statement names (R96). -/
def Addr.value : Addr → Word
  | .register r => BitVec.ofNat 32 r.offset
  | .region r off => BitVec.ofNat 32 (r.base + off)
  | .number a => a

/-- A write to CMD of a raw word (R96). -/
def cmdInput (w : Word) : Input := .write (BitVec.ofNat 32 Csr.cmd.offset) 4 w

/-- One `WR8` per byte (R97). -/
def byteWrites (base : Nat) : List Byte → List Input
  | [] => []
  | b :: bs => .write (BitVec.ofNat 32 base) 1 (b.setWidth 32) :: byteWrites (base + 1) bs

/-- One `WR32` per full group of four bytes, little-endian, and one `WR8` per remaining byte (R97). -/
def wordWrites (base : Nat) : List Byte → List Input
  | b0 :: b1 :: b2 :: b3 :: bs =>
    .write (BitVec.ofNat 32 base) 4 (wordOfBytes [b0, b1, b2, b3]) :: wordWrites (base + 4) bs
  | bs => byteWrites base bs

/-- The inputs a statement stands for (R96, R97). -/
def Stmt.inputs : Stmt → List Input
  | .wr32 a d => [.write a.value 4 d]
  | .wr16 a d => [.write a.value 2 d]
  | .wr8 a d => [.write a.value 1 d]
  | .rd32 a => [.read a.value 4]
  | .rd16 a => [.read a.value 2]
  | .rd8 a => [.read a.value 1]
  | .cmd i => [cmdInput (encode i)]
  | .cmdw w => [cmdInput w]
  | .poll => [.poll]
  | .expect _ => []
  | .run i => [cmdInput (encode i), .poll]
  | .bytes r off bs => if off % 4 = 0 then wordWrites (r.base + off) bs else byteWrites (r.base + off) bs
  | .clearSticky => [.write (BitVec.ofNat 32 Csr.status.offset) 4 0x00000300]

/-- A script: its statements one after another, in order (R96). -/
def scriptInputs (p : List Stmt) : List Input := p.flatMap Stmt.inputs

end Sys2Proof.Machine
end

