-- ==== Sys2Proof/Safety.lean ====
section
/-!
DEFINITION. What a sound state is, and the words in which the statements speak of runs.
-/

namespace Sys2Proof.Machine

/-- Every byte that is held lies in the LUT, FRAME, PKT or SRC (R67): nothing is stored at an unmapped address or in
the CSR region. -/
def State.Mapped (s : State) : Prop := ∀ c ∈ s.mem, isStorage c.1 = true

/-- While LUT_VALID = 1 every LUT entry has been written (R42, R110), so SAMPLE reads no unconstrained entry (R250). -/
def State.LutBuilt (s : State) : Prop :=
  s.lutValid = true → ∀ (c : Fin 3) (i : Nat), i < 256 → (Memory.get? s.mem (lutAddr c i)).isSome = true

/-- The invariant of the machine: the memory is in its canonical form, holds storage bytes only, and holds the whole
LUT while LUT_VALID = 1. -/
structure State.Inv (s : State) : Prop where
  canonical : Memory.wf s.mem = true
  mapped : s.Mapped
  lutBuilt : s.LutBuilt

/-- A step that goes on: neither a fault nor a refusal. -/
def GoesOn (o : Host.Outcome State Fault Refusal) : Prop := ∃ t, o = .next t

end Sys2Proof.Machine
end

