-- ==== Sys2Proof/Certificates/Slice0/Obligations.lean ====
section
/-!
DEFINITION. The statements for the provers. The words of spec/00_scope.md R11 and R12 that they need (the value of a
binary32 pattern, truncation, clamping) are written here once more over rationals, in the spec's own form, so that no
statement about arithmetic repeats the model's integers.
-/

namespace Sys2Proof.Claims

open Sys2Proof.Machine

/-- f32(b) of a finite pattern, as R11 writes it: s = b[31], e = b[30:23], f = b[22:0]. -/
def value32 (b : Word) : ℚ :=
  let sign : ℚ := if b.getLsbD 31 then -1 else 1
  let e := (b.extractLsb' 23 8).toNat
  let f : ℚ := (b.extractLsb' 0 23).toNat
  if e = 0 then sign * (2 : ℚ) ^ (-126 : ℤ) * (f / 2 ^ 23) else sign * (2 : ℚ) ^ ((e : ℤ) - 127) * (1 + f / 2 ^ 23)

/-- finite(b) (R11). -/
def Finite32 (b : Word) : Prop := (b.extractLsb' 23 8).toNat ≠ 255

/-- trunc(q) (R12): the integer part, rounded toward zero. -/
def truncQ (q : ℚ) : ℤ := if 0 ≤ q then ⌊q⌋ else ⌈q⌉

/-- clampByte(n) (R12). -/
def clampZ (n : ℤ) : ℤ := min 255 (max 0 n)

/-- One multiply stage: clampByte(trunc(v × f32(b))) (R139, R140). -/
def stage (v : ℤ) (b : Word) : ℤ := clampZ (truncQ ((v : ℚ) * value32 b))

/-- The configuration checks of SAMPLE fail (R131). A pattern with exponent field 255 is NaN or ±Infinity; as a brightness
it is NaN, below 0 or above 1. -/
def SampleConfigBad (s : State) : Prop :=
  s.srcWidth = 0 ∨ s.srcHeight = 0 ∨ s.matWidth = 0 ∨ s.matHeight = 0
    ∨ ¬Finite32 s.corrR ∨ ¬Finite32 s.corrG ∨ ¬Finite32 s.corrB
    ∨ ¬Finite32 s.brightness ∨ value32 s.brightness < 0 ∨ 1 < value32 s.brightness

/-- The aspect deviation |W/H − w/h| is above 1/50 (R133). -/
def AspectBad (s : State) : Prop :=
  1 / 50 < |(s.srcWidth.toNat : ℚ) / s.srcHeight.toNat - (s.matWidth.toNat : ℚ) / s.matHeight.toNat|

/-- A buffer is too small for the raw frame or for the frame (R134). -/
def AllocBad (s : State) : Prop :=
  Config.srcBytes < s.srcWidth.toNat * s.srcHeight.toNat * 3 ∨ 65535 < s.matWidth.toNat * s.matHeight.toNat * 3

/-- Every check of SAMPLE passes (R131 to R134). -/
def SampleAccepts (s : State) : Prop :=
  ¬SampleConfigBad s ∧ s.lutValid = true ∧ ¬AspectBad s ∧ ¬AllocBad s

/-- An exponent that GAMMA_BUILD accepts: finite and above 0 (R112). -/
def GammaGood (b : Word) : Prop := Finite32 b ∧ 0 < value32 b

/-- A transaction that R61 calls legal, clause by clause; only region r holds all its bytes. -/
def Legal (a : Word) (n : Nat) (isWrite : Bool) : Prop :=
  (n = 1 ∨ n = 2 ∨ n = 4) ∧ a.toNat % n = 0
    ∧ ∃ r : Region, r.base ≤ a.toNat ∧ a.toNat + n ≤ r.base + r.size
      ∧ (r = .csr → n = 4 ∧ a.toNat ≤ 0x50)
      ∧ (r = .lutR ∨ r = .lutG ∨ r = .lutB ∨ r = .pkt → isWrite = false)

/-- The bits a RW register keeps of a write (R27 to R37); none for a register that is not RW (R23). -/
def rwMask : Csr → Option Word
  | .srcWidth | .srcHeight | .matWidth | .matHeight => some 0x0000FFFF
  | .corrR | .corrG | .corrB | .brightness | .gammaR | .gammaG | .gammaB => some 0xFFFFFFFF
  | .srcDelayCs | .minDelayMs | .payloadLen => some 0xFFFFFFFF
  | .id | .status | .cmd | .frameDelayMs | .pktLen | .capSrcBytes | .capFrameBytes => none

/-- The reset values of the table of R23. -/
def resetValue : Csr → Word
  | .id => 0x44445001
  | .corrR | .corrG | .corrB | .gammaR | .gammaG | .gammaB => 0x3F800000
  | .brightness => 0x3F000000
  | .minDelayMs => Config.minDelayMs
  | .capSrcBytes => BitVec.ofNat 32 Config.srcBytes
  | .capFrameBytes => 0x0000FFFF
  | .status | .cmd | .srcWidth | .srcHeight | .matWidth | .matHeight | .srcDelayCs | .frameDelayMs | .payloadLen
  | .pktLen => 0

/-- The byte at an address is b. -/
def Holds (s : State) (a : Nat) (b : Byte) : Prop := Memory.get? s.mem a = some b

/-- The byte at an address is as it was: written with the same value, or unwritten in both states. -/
def Same (s t : State) (a : Nat) : Prop := Memory.get? t.mem a = Memory.get? s.mem a

/-- g[c] is the exponent register of channel c: 0 is GAMMA_R, 1 is GAMMA_G, 2 is GAMMA_B (R9, R93). -/
def gammaReg (s : State) (c : Fin 3) : Word := ![s.gammaR, s.gammaG, s.gammaB] c

/-- corr[c] is the correction register of channel c: 0 is CORR_R, 1 is CORR_G, 2 is CORR_B (R9, R93). -/
def corrReg (s : State) (c : Fin 3) : Word := ![s.corrR, s.corrG, s.corrB] c

/-- What happens next outside the engine is the assertion of the reset input. -/
def ResetNext (s : State) : Prop := ∃ rest, s.inputs = .reset :: rest

/-- The 10-byte header of a payload of L bytes, as R172 writes it out. -/
def header (L : Nat) : List Byte :=
  [0x41, 0x00, 0x03, 0x00, 0x00, 0x00, 0x00, 0x00, BitVec.ofNat 8 (L / 256), BitVec.ofNat 8 L]

/-- While PKT_LEN is not 0, PKT holds a whole packet of that length: the header of L = PKT_LEN − 10 payload bytes, and
every byte of the payload written (R38, R172, R173). -/
def PacketSound (s : State) : Prop :=
  s.pktLen ≠ 0 → ∃ L, L ≤ 65535 ∧ s.pktLen.toNat = 10 + L
    ∧ (∀ (k : Nat) (h : k < 10), Holds s (Region.pkt.base + k) ((header L)[k]'h))
    ∧ ∀ k, k < 10 + L → ∃ b, Holds s (Region.pkt.base + k) b

end Sys2Proof.Claims

section

open Sys2Proof Sys2Proof.Machine Sys2Proof.Claims

/-! ## Command words -/

/-- R91, R92: every command decodes from its word. -/
def Obligations.DecodeOfEncode : Prop := ∀ i : Instr, decode (encode i) = .ok i

/-- R91: the five words as the spec writes them, and the illegal words of spec/95_test_vectors.md K3 to K6. -/
def Obligations.DecodeOfSpecWords : Prop :=
  decode 0x00000000 = .ok .nop ∧ decode 0x00000001 = .ok .gammaBuild ∧ decode 0x00000002 = .ok .sample
    ∧ decode 0x00000003 = .ok .encode ∧ decode 0x00000004 = .ok .softReset
    ∧ (decode 0x00000005).toOption = none ∧ (decode 0x000000FF).toOption = none
    ∧ (decode 0x00000102).toOption = none ∧ (decode 0x80000001).toOption = none

/-- R92: all 32 bits are compared, so a word decodes to a command only if it is the command's word. -/
def Obligations.DecodeAcceptsOnlyCommandWords : Prop :=
  ∀ (w : Word) (i : Instr), decode w = .ok i ↔ w = encode i

/-- R94: a word is rejected exactly when its OP is 0x05 to 0xFF or bits [31:8] are not zero. -/
def Obligations.DecodeRejectsIllegalWords : Prop :=
  ∀ w : Word, (∃ e, decode w = .error e) ↔ (5 ≤ (w.extractLsb' 0 8).toNat ∨ w.extractLsb' 8 24 ≠ 0)

/-! ## The step -/

/-- R40: when the engine moves and `pending` is a command, the step performs that command, and adds nothing around it;
so does the step after a command word is placed. -/
def Obligations.StepPerformsPendingCommand : Prop :=
  (∀ (s : State) (i : Instr), s.engineTurn = true → decode s.pending = .ok i → step s = exec i s)
    ∧ ∀ (s : State) (nbits w : Nat) (i : Instr), decodeTableWord nbits w = some i →
        step (s.withFetchWord nbits w) = exec i (s.withFetchWord nbits w)

/-- R194: an illegal word completes with ILLEGAL_CMD and has no other effect. -/
def Obligations.StepPerformsIllegalWord : Prop :=
  ∀ s : State, s.engineTurn = true → (∀ i, s.pending ≠ encode i) →
    step s = .next { s with result := .illegalCmd, busy := false }

/-- R76: when the engine does not move, the oldest input happens, and one input is taken. With no input the state stays
(R210; log 11); a POLL is a read of STATUS and stays the oldest input while BUSY = 1 (R96; log 12). Taking an input and
keeping an answer change the model's own fields alone (log 1, log 2). -/
def Obligations.StepTakesOldestInput : Prop :=
  ∀ s : State, s.engineTurn = false → ∃ t, step s = .next t
    ∧ (s.inputs = [] → t = s)
    ∧ (∀ a n rest, s.inputs = .read a n :: rest → t = State.answer (hostRead (s.take rest) a n))
    ∧ (∀ a n d rest, s.inputs = .write a n d :: rest → t = State.answer (hostWrite (s.take rest) a n d))
    ∧ (∀ rest, s.inputs = .reset :: rest → t = (s.take rest).hardReset)
    ∧ (∀ rest, s.inputs = .poll :: rest →
        t = State.answer (hostRead (s.take (if s.busy then s.inputs else rest)) 0x04 4))
    ∧ (∀ rest, s.take rest = { s with inputs := rest, engineWait := s.engineWait - 1 })
    ∧ ∀ reply, State.answer (s, reply) = { s with replies := s.replies ++ [reply] }

/-- R200: no step traps or halts; a command that fails changes RESULT and BUSY alone; the engine is idle after every
command, and the next CMD write is accepted, whatever the result was. -/
def Obligations.CommandsNeverTrap : Prop :=
  (∀ s : State, GoesOn (step s))
    ∧ (∀ (i : Instr) (s t : State), exec i s = .next t → t.busy = false
        ∧ (t.result ≠ .ok → t = { s with result := t.result, busy := false }))
    ∧ ∀ s t : State, engineStep s = .next t → t.busy = false ∧ ∀ d : Word, ∃ u,
        hostWrite t 0x08 4 d = (u, ⟨.ok, none⟩) ∧ u.pending = d ∧ u.busy = true

/-- Every step keeps the invariant: canonical memory, storage bytes only, the whole LUT written while LUT_VALID = 1. -/
def Obligations.StepKeepsInv : Prop := ∀ s t : State, s.Inv → step s = .next t → t.Inv

/-- The invariant holds right after reset. -/
def Obligations.ResetSatisfiesInv : Prop := State.reset.Inv

/-- R38, R172, R173: every step keeps a sound packet: what PKT holds below PKT_LEN is always one whole packet. -/
def Obligations.StepKeepsPacketSound : Prop := ∀ s t : State, PacketSound s → step s = .next t → PacketSound t

/-- PKT holds a sound packet right after reset (PKT_LEN = 0). -/
def Obligations.ResetHasPacketSound : Prop := PacketSound State.reset

/-- R42: the life of the LUT. LUT_VALID is 0 after both resets; a successful GAMMA_BUILD sets it and nothing else does;
while it is 1, GAMMA_BUILD reports LUT_LOCKED and writes nothing, and no step changes an entry. -/
def Obligations.LutLifecycle : Prop :=
  (∀ s : State, s.hardReset.lutValid = false)
    ∧ (∀ s : State, ∃ t, exec .softReset s = .next t ∧ t.lutValid = false)
    ∧ (∀ s t : State, exec .gammaBuild s = .next t → t.result = .ok → t.lutValid = true)
    ∧ (∀ s t : State, step s = .next t → s.lutValid = false → t.lutValid = true →
        s.engineTurn = true ∧ s.pending = encode .gammaBuild ∧ t.result = .ok)
    ∧ (∀ s : State, s.lutValid = true → exec .gammaBuild s = .next { s with result := .lutLocked, busy := false })
    ∧ ∀ s t : State, step s = .next t → s.lutValid = true → t.lutValid = true →
        ∀ (c : Fin 3) (i : Nat), i < 256 → Same s t (lutAddr c i)

/-- R111, R192, R240: LUT_VALID falls only by SOFT_RESET or a hardware reset. -/
def Obligations.LutValidFallsOnlyByReset : Prop :=
  ∀ s t : State, step s = .next t → s.lutValid = true → t.lutValid = false →
    (s.engineTurn = true ∧ s.pending = encode .softReset) ∨ (s.engineTurn = false ∧ ResetNext s)

/-- R63: while a command is pending and no reset comes, nothing the command reads can change: every control register but
the two sticky bits, `pending`, RESULT and every stored byte stay. -/
def Obligations.InputsFrozenWhileBusy : Prop :=
  ∀ s t : State, s.busy = true → s.engineTurn = false → ¬ResetNext s → step s = .next t →
    t = { s with
      cmdOvr := t.cmdOvr, wrBusy := t.wrBusy, inputs := t.inputs, replies := t.replies, engineWait := t.engineWait
      freeIx := t.freeIx }

/-- R25: RESULT changes only when a command completes (or at a hardware reset, R240). -/
def Obligations.ResultChangesOnlyAtCompletion : Prop :=
  ∀ s t : State, step s = .next t → t.result ≠ s.result →
    s.engineTurn = true ∨ (s.engineTurn = false ∧ ResetNext s)

/-- R25, R26: BUSY rises only by a write to CMD, whose data becomes `pending`. -/
def Obligations.BusyRisesOnlyByCmdWrite : Prop :=
  ∀ s t : State, step s = .next t → s.busy = false → t.busy = true →
    ∃ d rest, s.inputs = .write 0x08 4 d :: rest ∧ t.pending = d

/-- R252, R240: BUSY falls within a bounded number of steps, because the pending command completes or a hardware reset
discards it. The bound is the model's (log 2): the free number of inputs that come first. -/
def Obligations.BusyFallsWithinBound : Prop :=
  ∀ s : State, s.busy = true →
    ∃ (k : Nat) (t : State), k ≤ s.engineWait + 1 ∧ Sys2Proof.core.run k s = .next t ∧ t.busy = false

/-- R40, R63, R252: where no reset is among the inputs, the engine performs the pending command, after at most
engineWait host steps (the model's bound, log 2), on the very registers and bytes that it was accepted with, and BUSY
falls in that step. -/
def Obligations.PendingCommandIsPerformed : Prop :=
  ∀ s : State, s.busy = true → Input.reset ∉ s.inputs →
    ∃ (k : Nat) (u t : State), k ≤ s.engineWait ∧ Sys2Proof.core.run k s = .next u
      ∧ u = { s with
          cmdOvr := u.cmdOvr, wrBusy := u.wrBusy, inputs := u.inputs, replies := u.replies
          engineWait := u.engineWait, freeIx := u.freeIx }
      ∧ u.engineTurn = true ∧ engineStep u = .next t ∧ Sys2Proof.core.run (k + 1) s = .next t ∧ t.busy = false

/-- R67: each command writes only the region its row names; every other byte is as it was. -/
def Obligations.CommandsWriteOnlyTheirRegion : Prop :=
  ∀ (i : Instr) (s t : State) (a : Nat), exec i s = .next t →
    (∀ r, writesRegion i r = true → r.contains a 1 = false) → Same s t a

/-! ## The host port -/

/-- R61: a transaction is answered OK exactly when it is legal; an illegal one changes no state, whatever BUSY is, and an
illegal read returns 0. -/
def Obligations.IllegalTransactionsGetErr : Prop :=
  ∀ (s : State) (a : Word) (n : Nat) (d : Word),
    (Legal a n false → (hostRead s a n).2.resp = .ok)
      ∧ (¬Legal a n false → hostRead s a n = (s, ⟨.err, some 0⟩))
      ∧ (Legal a n true → (hostWrite s a n d).2.resp = .ok)
      ∧ (¬Legal a n true → hostWrite s a n d = (s, ⟨.err, none⟩))

/-- R63: a legal write while BUSY = 1 is answered OK; STATUS takes it, CMD sets CMD_OVR, every other target sets
WR_BUSY, and nothing else changes. -/
def Obligations.WritesWhileBusy : Prop :=
  ∀ (s : State) (a : Word) (n : Nat) (d : Word), s.busy = true → Legal a n true →
    hostWrite s a n d =
      (if a = 0x04 then { s with cmdOvr := s.cmdOvr && !d.getLsbD 8, wrBusy := s.wrBusy && !d.getLsbD 9 }
       else if a = 0x08 then { s with cmdOvr := true }
       else { s with wrBusy := true }, ⟨.ok, none⟩)

/-- R26: CMD reads 0; while BUSY = 0 a write of any word sets `pending` and BUSY and changes nothing else (but the
model's own fields that say when the engine moves, log 2); while BUSY = 1 the write is dropped with CMD_OVR. -/
def Obligations.CmdWriteStartsCommand : Prop :=
  ∀ (s : State) (d : Word),
    hostRead s 0x08 4 = (s, ⟨.ok, some 0⟩)
      ∧ (s.busy = false → ∃ t, hostWrite s 0x08 4 d = (t, ⟨.ok, none⟩)
          ∧ t = { s with pending := d, busy := true, engineWait := t.engineWait, freeIx := t.freeIx })
      ∧ (s.busy = true → hostWrite s 0x08 4 d = ({ s with cmdOvr := true }, ⟨.ok, none⟩))

/-- R25, R201: the layout of STATUS, bit by bit, with the reserved bits 0, and the eight result codes' numbers. -/
def Obligations.StatusLayout : Prop :=
  (∀ s : State, ∃ v : Word, hostRead s 0x04 4 = (s, ⟨.ok, some v⟩)
    ∧ v.getLsbD 0 = s.busy ∧ v.getLsbD 1 = s.lutValid ∧ v.extractLsb' 2 2 = 0 ∧ v.extractLsb' 4 4 = s.result.code
    ∧ v.getLsbD 8 = s.cmdOvr ∧ v.getLsbD 9 = s.wrBusy ∧ v.extractLsb' 10 22 = 0)
    ∧ ResultCode.ok.code = 0 ∧ ResultCode.configError.code = 1 ∧ ResultCode.unsupportedAspect.code = 2
    ∧ ResultCode.allocError.code = 3 ∧ ResultCode.payloadTooLarge.code = 4 ∧ ResultCode.lutNotReady.code = 5
    ∧ ResultCode.lutLocked.code = 6 ∧ ResultCode.illegalCmd.code = 7

/-- R25: a write to STATUS clears CMD_OVR by d[8] and WR_BUSY by d[9], ignores every other bit, and is performed
whatever BUSY is. -/
def Obligations.StatusWriteOneToClear : Prop :=
  ∀ (s : State) (d : Word), ∃ t, hostWrite s 0x04 4 d = (t, ⟨.ok, none⟩)
    ∧ t = { s with cmdOvr := t.cmdOvr, wrBusy := t.wrBusy }
    ∧ t.cmdOvr = (if d.getLsbD 8 then false else s.cmdOvr) ∧ t.wrBusy = (if d.getLsbD 9 then false else s.wrBusy)

/-- R23, R24, R26 to R39, R64: what a 4-byte read gives at each of R23's offsets, whatever BUSY is, by the state's own
fields; the read changes nothing. Every register is read so at its offset (STATUS at 0x04: StatusLayout says its bits). -/
def Obligations.EveryRegisterReads : Prop :=
  ∀ s : State,
    hostRead s 0x00 4 = (s, ⟨.ok, some 0x44445001⟩)
      ∧ hostRead s 0x04 4 = (s, ⟨.ok, some s.statusWord⟩)
      ∧ hostRead s 0x08 4 = (s, ⟨.ok, some 0⟩)
      ∧ hostRead s 0x0C 4 = (s, ⟨.ok, some (s.srcWidth.setWidth 32)⟩)
      ∧ hostRead s 0x10 4 = (s, ⟨.ok, some (s.srcHeight.setWidth 32)⟩)
      ∧ hostRead s 0x14 4 = (s, ⟨.ok, some (s.matWidth.setWidth 32)⟩)
      ∧ hostRead s 0x18 4 = (s, ⟨.ok, some (s.matHeight.setWidth 32)⟩)
      ∧ hostRead s 0x1C 4 = (s, ⟨.ok, some s.corrR⟩)
      ∧ hostRead s 0x20 4 = (s, ⟨.ok, some s.corrG⟩)
      ∧ hostRead s 0x24 4 = (s, ⟨.ok, some s.corrB⟩)
      ∧ hostRead s 0x28 4 = (s, ⟨.ok, some s.brightness⟩)
      ∧ hostRead s 0x2C 4 = (s, ⟨.ok, some s.gammaR⟩)
      ∧ hostRead s 0x30 4 = (s, ⟨.ok, some s.gammaG⟩)
      ∧ hostRead s 0x34 4 = (s, ⟨.ok, some s.gammaB⟩)
      ∧ hostRead s 0x38 4 = (s, ⟨.ok, some s.srcDelayCs⟩)
      ∧ hostRead s 0x3C 4 = (s, ⟨.ok, some s.minDelayMs⟩)
      ∧ hostRead s 0x40 4 = (s, ⟨.ok, some s.frameDelayMs⟩)
      ∧ hostRead s 0x44 4 = (s, ⟨.ok, some s.payloadLen⟩)
      ∧ hostRead s 0x48 4 = (s, ⟨.ok, some s.pktLen⟩)
      ∧ hostRead s 0x4C 4 = (s, ⟨.ok, some (BitVec.ofNat 32 Config.srcBytes)⟩)
      ∧ hostRead s 0x50 4 = (s, ⟨.ok, some 0x0000FFFF⟩)
      ∧ (∀ r : Csr, hostRead s (BitVec.ofNat 32 r.offset) 4 = (s, ⟨.ok, some (s.csrRead r)⟩))
      ∧ [Csr.id, .status, .cmd, .srcWidth, .srcHeight, .matWidth, .matHeight, .corrR, .corrG, .corrB, .brightness,
          .gammaR, .gammaG, .gammaB, .srcDelayCs, .minDelayMs, .frameDelayMs, .payloadLen, .pktLen, .capSrcBytes,
          .capFrameBytes].map Csr.offset
        = [0x00, 0x04, 0x08, 0x0C, 0x10, 0x14, 0x18, 0x1C, 0x20, 0x24, 0x28, 0x2C, 0x30, 0x34, 0x38, 0x3C, 0x40, 0x44,
          0x48, 0x4C, 0x50]

/-- R45: an idle write to a RW register stores its defined bits, keeps the reserved bits 0 and changes no other register
and no byte; a write to a RO register is answered OK and changes nothing. -/
def Obligations.RegisterWriteReadsBack : Prop :=
  ∀ (s : State) (r : Csr) (d : Word), s.busy = false →
    (∀ m, rwMask r = some m → ∃ t, hostWrite s (BitVec.ofNat 32 r.offset) 4 d = (t, ⟨.ok, none⟩)
        ∧ t.csrRead r = d &&& m ∧ (∀ r', r' ≠ r → t.csrRead r' = s.csrRead r') ∧ t.mem = s.mem
        ∧ t.pending = s.pending ∧ t.freeIx = s.freeIx)
      ∧ (rwMask r = none → r ≠ .status → r ≠ .cmd →
          hostWrite s (BitVec.ofNat 32 r.offset) 4 d = (s, ⟨.ok, none⟩))

/-- R62, R68: an idle legal write to FRAME or SRC stores byte k of the data at a + k, lowest byte first, and changes no
other byte and no register. -/
def Obligations.BufferWriteStoresBytes : Prop :=
  ∀ (s : State) (a : Word) (n : Nat) (d : Word), s.busy = false → Legal a n true → 256 ≤ a.toNat →
    ∃ t, hostWrite s a n d = (t, ⟨.ok, none⟩)
      ∧ (∀ k, k < n → Holds t (a.toNat + k) (d.extractLsb' (8 * k) 8))
      ∧ (∀ x, x < a.toNat ∨ a.toNat + n ≤ x → Same s t x)
      ∧ t = { s with mem := t.mem }

/-- R60, R65, R68: what an idle legal write to FRAME or SRC stored is read back by the same transaction, zero-extended;
the read changes no register and no byte. -/
def Obligations.BufferReadAfterWrite : Prop :=
  ∀ (s : State) (a : Word) (n : Nat) (d : Word), s.busy = false → Legal a n true → 256 ≤ a.toNat →
    ∃ t, hostRead (hostWrite s a n d).1 a n = (t, ⟨.ok, some (BitVec.ofNat 32 (d.toNat % 2 ^ (8 * n)))⟩)
      ∧ t = { (hostWrite s a n d).1 with freeIx := t.freeIx }

/-- R65: a legal read of a buffer returns the sum of its bytes times 256^k. A byte is the free value of the read while
BUSY = 1, pending[31:8] = 0 and the pending opcode writes the region (log 4), else the byte there (log 3). -/
def Obligations.BufferReadSumsBytes : Prop :=
  ∀ (s : State) (a : Word) (n : Nat) (r : Region), Legal a n false → r ≠ .csr → r.contains a.toNat n = true →
    ∃ (t : State) (byte : Nat → Byte), hostRead s a n = (t, ⟨.ok, some (BitVec.ofNat 32 (∑ k ∈ Finset.range n, (byte k).toNat * 256 ^ k))⟩)
      ∧ t = { s with freeIx := t.freeIx }
      ∧ ∀ k, k < n → byte k =
          if s.busy = true ∧ s.pending.extractLsb' 8 24 = 0
            ∧ ((s.pending.extractLsb' 0 8 = 1 ∧ (r = .lutR ∨ r = .lutG ∨ r = .lutB))
              ∨ (s.pending.extractLsb' 0 8 = 2 ∧ r = .frame) ∨ (s.pending.extractLsb' 0 8 = 3 ∧ r = .pkt))
          then Config.freeByte (s.freeIx + k) else s.byteAt (a.toNat + k) k

/-- R67: the address map, region by region: the first and the last address, the base and the size, and where
lut[c][i] lies. No address lies in two regions. -/
def Obligations.RegionsDisjoint : Prop :=
  (∀ a : Nat,
    (Region.csr.contains a 1 = true ↔ a ≤ 0x000000FF)
      ∧ (Region.lutR.contains a 1 = true ↔ 0x00001000 ≤ a ∧ a ≤ 0x000010FF)
      ∧ (Region.lutG.contains a 1 = true ↔ 0x00001100 ≤ a ∧ a ≤ 0x000011FF)
      ∧ (Region.lutB.contains a 1 = true ↔ 0x00001200 ≤ a ∧ a ≤ 0x000012FF)
      ∧ (Region.frame.contains a 1 = true ↔ 0x00010000 ≤ a ∧ a ≤ 0x0001FFFE)
      ∧ (Region.pkt.contains a 1 = true ↔ 0x00020000 ≤ a ∧ a ≤ 0x00030008)
      ∧ (Region.src.contains a 1 = true ↔ 0x01000000 ≤ a ∧ a < 0x01000000 + Config.srcBytes))
    ∧ (Region.csr.base = 0x00000000 ∧ Region.csr.size = 256)
    ∧ (Region.lutR.base = 0x00001000 ∧ Region.lutR.size = 256)
    ∧ (Region.lutG.base = 0x00001100 ∧ Region.lutG.size = 256)
    ∧ (Region.lutB.base = 0x00001200 ∧ Region.lutB.size = 256)
    ∧ (Region.frame.base = 0x00010000 ∧ Region.frame.size = 65535)
    ∧ (Region.pkt.base = 0x00020000 ∧ Region.pkt.size = 65545)
    ∧ (Region.src.base = 0x01000000 ∧ Region.src.size = Config.srcBytes)
    ∧ (∀ i : Nat, lutAddr 0 i = 0x00001000 + i ∧ lutAddr 1 i = 0x00001100 + i ∧ lutAddr 2 i = 0x00001200 + i)
    ∧ ∀ (r r' : Region) (a : Nat), r.contains a 1 = true → r'.contains a 1 = true → r = r'

/-- R97: on an idle block, the inputs of BYTES load exactly the bytes given into FRAME or SRC, whatever the alignment. -/
def Obligations.BytesStatementLoadsBuffer : Prop :=
  ∀ (s : State) (r : Region) (off : Nat) (bs : List Byte), s.busy = false → (r = .frame ∨ r = .src) →
    off + bs.length ≤ r.size → s.inputs = (Stmt.bytes r off bs).inputs →
    ∃ t, Sys2Proof.core.run s.inputs.length s = .next t ∧ t.inputs = []
      ∧ (∀ k (h : k < bs.length), Holds t (r.base + off + k) bs[k])
      ∧ ∀ x, x < r.base + off ∨ r.base + off + bs.length ≤ x → Same s t x

/-! ## Reset -/

/-- R23: right after reset every control register reads the reset value of the table. -/
def Obligations.ResetRegisterValues : Prop := ∀ r : Csr, State.reset.csrRead r = resetValue r

/-- R240: the hardware reset, between any two steps and whether or not a command is pending: every register at its reset
value, `pending` 0, every byte unwritten; the pending command has had no effect. -/
def Obligations.HardwareReset : Prop :=
  ∀ (s : State) (rest : List Input), s.engineTurn = false → s.inputs = .reset :: rest → ∃ t, step s = .next t
    ∧ (∀ r, t.csrRead r = resetValue r) ∧ t.busy = false ∧ t.lutValid = false ∧ t.result = .ok
    ∧ t.pending = 0 ∧ (∀ a, Memory.get? t.mem a = none) ∧ t.inputs = rest ∧ t.replies = s.replies

/-- R192: SOFT_RESET completes in every state; every control register takes its reset value and STATUS reads 0; every
byte of the buffers and of the LUT stays. That `pending` stays is the model's reading (log 13). -/
def Obligations.SoftResetEffect : Prop :=
  ∀ s : State, ∃ t, exec .softReset s = .next t
    ∧ (∀ r, t.csrRead r = resetValue r) ∧ t.busy = false ∧ t.lutValid = false ∧ t.result = .ok ∧ t.cmdOvr = false
    ∧ t.wrBusy = false ∧ t.mem = s.mem ∧ t.pending = s.pending ∧ t.inputs = s.inputs ∧ t.replies = s.replies
    ∧ t.freeIx = s.freeIx

/-- R190: NOP's word is 0; it completes in every state with RESULT = OK and changes nothing else but BUSY. -/
def Obligations.NopEffect : Prop :=
  decode 0x00000000 = .ok .nop ∧ ∀ s : State, exec .nop s = .next { s with result := .ok, busy := false }

/-! ## Numbers -/

/-- R11: what a binary32 pattern decodes to. A finite pattern's value is the exact rational of R11's formula. -/
def Obligations.Binary32DecodesExactly : Prop :=
  ∀ b : Word,
    (Finite32 b → ∃ n : ℤ, f32 b = .finite n ∧ (n : ℚ) / 2 ^ 149 = value32 b)
      ∧ (¬Finite32 b → b.extractLsb' 0 23 = 0 → f32 b = .infinite (b.getLsbD 31))
      ∧ (¬Finite32 b → b.extractLsb' 0 23 ≠ 0 → f32 b = .nan)

/-- R12, R139, R140: the model's multiply stages are clampByte(trunc(v × f32(b))) of the exact product. -/
def Obligations.StagesAreExactProducts : Prop :=
  ∀ (v : Nat) (b : Word), v ≤ 255 → Finite32 b →
    (stage1 v b : ℤ) = stage v b ∧ (stage2 v b : ℤ) = stage v b
      ∧ (0 ≤ value32 b → value32 b ≤ 1 → (stage2 v b : ℤ) = ⌊(v : ℚ) * value32 b⌋)

/-! ## GAMMA_BUILD -/

/-- R112: with LUT_VALID = 0, an exponent that is not finite, below 0 or 0 makes GAMMA_BUILD report CONFIG_ERROR and
write nothing. -/
def Obligations.GammaBuildConfigError : Prop :=
  ∀ s : State, s.lutValid = false → (∃ c : Fin 3, ¬Finite32 (gammaReg s c) ∨ value32 (gammaReg s c) ≤ 0) →
    exec .gammaBuild s = .next { s with result := .configError, busy := false }

/-- R110, R113: with LUT_VALID = 0 and three legal exponents GAMMA_BUILD completes: channel c of the LUT holds
GammaRef(g[c], i) for every i, with g[0], g[1], g[2] in GAMMA_R, GAMMA_G, GAMMA_B, LUT_VALID = 1, RESULT = OK; no other byte and no other register changes. -/
def Obligations.GammaBuildWritesLut : Prop :=
  ∀ s : State, s.lutValid = false → (∀ c : Fin 3, GammaGood (gammaReg s c)) → ∃ t, exec .gammaBuild s = .next t
    ∧ (∀ (c : Fin 3) (i : Nat), i < 256 → Holds t (lutAddr c i) (BitVec.ofNat 8 (gammaRef (gammaReg s c) i)))
    ∧ (∀ a, a < lutAddr 0 0 ∨ lutAddr 2 255 < a → Same s t a)
    ∧ t = { s with mem := t.mem, lutValid := true, result := .ok, busy := false }

/-- R114: the model's GammaRef, which compares integers, is the rounded real power: clampByte of
floor(255 × (i/255)^g + 1/2), with g the exact value of the pattern. -/
def Obligations.GammaRefIsRoundedRealPower : Prop :=
  ∀ (b : Word) (i : Nat), GammaGood b → i ≤ 255 →
    (gammaRef b i : ℤ) = clampZ ⌊255 * ((i : ℝ) / 255) ^ ((value32 b : ℚ) : ℝ) + 1 / 2⌋

/-- R115: for every legal exponent GammaRef is 0 at 0, 255 at 255, at most 255, and non-decreasing. -/
def Obligations.GammaRefLaws : Prop :=
  ∀ b : Word, GammaGood b → gammaRef b 0 = 0 ∧ gammaRef b 255 = 255
    ∧ (∀ i, gammaRef b i ≤ 255) ∧ ∀ i j, i ≤ j → j ≤ 255 → gammaRef b i ≤ gammaRef b j

/-- R115: the closed forms for the exponents 1.0, 2.0 and 0.5. -/
def Obligations.GammaRefClosedForms : Prop :=
  ∀ i : Nat, i ≤ 255 → gammaRef 0x3F800000 i = i ∧ gammaRef 0x40000000 i = (i ^ 2 + 127) / 255
    ∧ gammaRef 0x3F000000 i = (Nat.sqrt (1020 * i) + 1) / 2

/-! ## SAMPLE -/

/-- R131 to R134, R145: SAMPLE completes in every state; its result is the first check that fails, in the order
CONFIG_ERROR, LUT_NOT_READY, UNSUPPORTED_ASPECT, ALLOC_ERROR, and OK if none does; a failing check changes RESULT and
BUSY alone. -/
def Obligations.SampleReportsFirstFailingCheck : Prop :=
  ∀ s : State, ∃ t, exec .sample s = .next t ∧ (t.result ≠ .ok → t = { s with result := t.result, busy := false })
    ∧ (SampleConfigBad s → t.result = .configError)
    ∧ (¬SampleConfigBad s → s.lutValid = false → t.result = .lutNotReady)
    ∧ (¬SampleConfigBad s → s.lutValid = true → AspectBad s → t.result = .unsupportedAspect)
    ∧ (¬SampleConfigBad s → s.lutValid = true → ¬AspectBad s → AllocBad s → t.result = .allocError)
    ∧ (SampleAccepts s → t.result = .ok)

/-- R133: the integer gate 50 × |W × h − w × H| > H × h is the exact test |W/H − w/h| > 1/50. -/
def Obligations.AspectGateIsExactRatioTest : Prop :=
  ∀ W H w h : Nat, 0 < H → 0 < h →
    (aspectRejected W H w h = true ↔ 1 / 50 < |(W : ℚ) / H - (w : ℚ) / h|)

/-- R130, R136, R139 to R142: an accepted SAMPLE completes. FRAME byte (y × w + x) × 3 + c is the LUT entry of the
sampled source byte after both exact, truncated, clamped products, with corr[0], corr[1], corr[2] in CORR_R, CORR_G,
CORR_B; every byte of the frame is written; FRAME bytes from
w × h × 3 on, every other region and every register but FRAME_DELAY_MS, PAYLOAD_LEN, RESULT and BUSY stay. -/
def Obligations.SampleProducesFrame : Prop :=
  ∀ s : State, SampleAccepts s → ∃ t, exec .sample s = .next t
    ∧ (∀ (x y : Nat) (c : Fin 3) (v out : Byte), x < s.matWidth.toNat → y < s.matHeight.toNat →
        Holds s (Region.src.base
          + ((2 * y + 1) * s.srcHeight.toNat / (2 * s.matHeight.toNat) * s.srcWidth.toNat
            + (2 * x + 1) * s.srcWidth.toNat / (2 * s.matWidth.toNat)) * 3 + c.val) v →
        Holds s (lutAddr c (stage (stage v.toNat (corrReg s c)) s.brightness).toNat) out →
        Holds t (Region.frame.base + (y * s.matWidth.toNat + x) * 3 + c.val) out)
    ∧ (∀ k, k < s.matWidth.toNat * s.matHeight.toNat * 3 → ∃ b, Holds t (Region.frame.base + k) b)
    ∧ (∀ a, a < Region.frame.base ∨ Region.frame.base + s.matWidth.toNat * s.matHeight.toNat * 3 ≤ a → Same s t a)
    ∧ t = { s with
        mem := t.mem, frameDelayMs := t.frameDelayMs, payloadLen := t.payloadLen, freeIx := t.freeIx
        result := .ok, busy := false }

/-- R143, R144: an accepted SAMPLE resolves the delay (the floor for a delay ≤ 0, else hundredths of a second to
milliseconds, saturated) and sets PAYLOAD_LEN to w × h × 3. -/
def Obligations.SampleResolvesDelayAndLength : Prop :=
  ∀ s : State, SampleAccepts s → ∃ t, exec .sample s = .next t
    ∧ (t.frameDelayMs.toNat : ℤ) =
        (if s.srcDelayCs.toInt * 10 ≤ 0 then (s.minDelayMs.toNat : ℤ) else min (s.srcDelayCs.toInt * 10) (2 ^ 32 - 1))
    ∧ t.payloadLen.toNat = s.matWidth.toNat * s.matHeight.toNat * 3

/-- R136, R137: the sampled column lies in the source, is the pixel that holds the cell's centre, is x for equal sizes,
and k × x + k div 2 for W = k × w. -/
def Obligations.SamplePositionHoldsCellCentre : Prop :=
  ∀ W w x : Nat, 0 < W → x < w →
    samplePos W w x ≤ W - 1
      ∧ (samplePos W w x : ℚ) ≤ (2 * x + 1) * W / (2 * w) ∧ (2 * x + 1) * W / (2 * w) < (samplePos W w x : ℚ) + 1
      ∧ (W = w → samplePos W w x = x) ∧ ∀ k, W = k * w → samplePos W w x = k * x + k / 2

/-- R138: no cross-channel mixing. Two accepted SAMPLEs of the same sizes and brightness that agree on corr[c], on the
written bytes of channel c of the source and on the written LUT of channel c give the same channel c of the frame. -/
def Obligations.ChannelsDoNotMix : Prop :=
  ∀ (s s' t t' : State) (c : Fin 3), SampleAccepts s → SampleAccepts s' →
    s'.srcWidth = s.srcWidth → s'.srcHeight = s.srcHeight → s'.matWidth = s.matWidth → s'.matHeight = s.matHeight →
    s'.brightness = s.brightness → corrReg s' c = corrReg s c →
    (∀ p, p < s.srcWidth.toNat * s.srcHeight.toNat → ∃ b,
      Holds s (Region.src.base + p * 3 + c.val) b ∧ Holds s' (Region.src.base + p * 3 + c.val) b) →
    (∀ i, i < 256 → ∃ b, Holds s (lutAddr c i) b ∧ Holds s' (lutAddr c i) b) →
    exec .sample s = .next t → exec .sample s' = .next t' →
    ∀ p, p < s.matWidth.toNat * s.matHeight.toNat → Same t t' (Region.frame.base + p * 3 + c.val)

/-- R146: with every correction 1.0, brightness 1.0 and an identity LUT, each matrix pixel equals its source pixel. -/
def Obligations.ColourPipelineIdentity : Prop :=
  ∀ s t : State, SampleAccepts s → s.brightness = 0x3F800000 → (∀ c, corrReg s c = 0x3F800000) →
    (∀ (c : Fin 3) (i : Nat), i < 256 → Holds s (lutAddr c i) (BitVec.ofNat 8 i)) → exec .sample s = .next t →
    ∀ (x y : Nat) (c : Fin 3) (v : Byte), x < s.matWidth.toNat → y < s.matHeight.toNat →
      Holds s (Region.src.base
        + (samplePos s.srcHeight.toNat s.matHeight.toNat y * s.srcWidth.toNat
          + samplePos s.srcWidth.toNat s.matWidth.toNat x) * 3 + c.val) v →
      Holds t (Region.frame.base + (y * s.matWidth.toNat + x) * 3 + c.val) v

/-! ## ENCODE -/

/-- R171, R174: a payload length above 65535 is rejected and nothing is written; that is the only check. -/
def Obligations.EncodeRejectsLongPayload : Prop :=
  ∀ s : State,
    (65535 < s.payloadLen.toNat → exec .encode s = .next { s with result := .payloadTooLarge, busy := false })
      ∧ (s.payloadLen.toNat ≤ 65535 → ∃ t, exec .encode s = .next t ∧ t.result = .ok)

/-- R170, R172, R173: ENCODE of a length up to 65535 completes: the 10-byte header, the FRAME bytes unmodified after it,
PKT_LEN = 10 + L; every packet byte is written; no other byte and no other register changes. -/
def Obligations.EncodeWritesPacket : Prop :=
  ∀ s : State, s.payloadLen.toNat ≤ 65535 → ∃ t, exec .encode s = .next t
    ∧ (∀ (k : Nat) (h : k < 10), Holds t (Region.pkt.base + k)
        ((header s.payloadLen.toNat)[k]'h))
    ∧ (∀ (k : Nat) (b : Byte), k < s.payloadLen.toNat → Holds s (Region.frame.base + k) b →
        Holds t (Region.pkt.base + 10 + k) b)
    ∧ (∀ k, k < 10 + s.payloadLen.toNat → ∃ b, Holds t (Region.pkt.base + k) b)
    ∧ (∀ a, a < Region.pkt.base ∨ Region.pkt.base + 10 + s.payloadLen.toNat ≤ a → Same s t a)
    ∧ t.pktLen.toNat = 10 + s.payloadLen.toNat
    ∧ t = { s with mem := t.mem, pktLen := t.pktLen, freeIx := t.freeIx, result := .ok, busy := false }

/-- R134, R144, R173: every frame that SAMPLE produces can be encoded as it stands, and the packet carries exactly it. -/
def Obligations.SampledFrameIsEncodable : Prop :=
  ∀ s t : State, SampleAccepts s → exec .sample s = .next t → ∃ u, exec .encode t = .next u ∧ u.result = .ok
    ∧ u.pktLen.toNat = 10 + s.matWidth.toNat * s.matHeight.toNat * 3
    ∧ ∀ k, k < s.matWidth.toNat * s.matHeight.toNat * 3 →
        Memory.get? u.mem (Region.pkt.base + 10 + k) = Memory.get? t.mem (Region.frame.base + k)

/-! ## The reference host -/

/-- R217, R218, R222: driving an idle block for k ticks, with the unbounded target -1, or with a target of T loops where
k ≤ T × N: the driver still plays, has emitted k packets, the frames in order over and over, and stands at frame k mod N
with k div N loops finished. So with target -1 it never reaches Completed, and after 3 × N packets its index is 0. -/
def Obligations.PlaybackAdvances : Prop :=
  ∀ (s : State) (frames : List StoredFrame) (target : ℤ) (k : Nat), s.busy = false →
    (hN : 0 < frames.length) → (∀ f ∈ frames, f.pixels.length ≤ 65535) →
    (target = -1 ∨ (k : ℤ) ≤ target * frames.length) →
    ∃ s' p', (Playback.start frames target).play s k
        = (p', s', (List.range k).map fun j =>
            header (frames[j % frames.length]'(Nat.mod_lt j hN)).pixels.length
              ++ (frames[j % frames.length]'(Nat.mod_lt j hN)).pixels)
      ∧ p'.state = .playing ∧ p'.index = k % frames.length ∧ p'.loops = k / frames.length
      ∧ (k = 3 * frames.length → p'.index = 0 ∧ p'.loops = 3)

/-- R217 to R222: driving an idle block, a FrameSet of N ≥ 1 frames with a target of T loops is emitted T times in order,
each frame as one packet (the header and the frame's bytes), and then the driver is Completed. -/
def Obligations.PlaybackEmitsFramesInOrder : Prop :=
  ∀ (s : State) (frames : List StoredFrame) (T : Nat), s.busy = false → frames ≠ [] →
    (∀ f ∈ frames, f.pixels.length ≤ 65535) →
    ∃ s' p', (Playback.start frames T).play s (T * frames.length + 1)
        = (p', s', (List.replicate T (frames.map fun f => header f.pixels.length ++ f.pixels)).flatten)
      ∧ p'.state = .completed

end
end

