-- ==== Sys2Proof/Laws/Memory.lean ====
section
/-!
SUPPORT. The laws of the memory: what a byte reads as after a store, and that a store keeps the canonical form.
-/

namespace Sys2Proof.Machine

@[simp] theorem Memory.get?_nil (a : Nat) : Memory.get? [] a = none := rfl

theorem Memory.get?_cons (a' : Nat) (b : Byte) (m : Memory) (a : Nat) :
    Memory.get? ((a', b) :: m) a = if a' = a then some b else Memory.get? m a := rfl

theorem Memory.get?_append (m m' : Memory) (a : Nat) :
    Memory.get? (m ++ m') a = (Memory.get? m a).or (Memory.get? m' a) := by
  induction m with
  | nil => simp
  | cons c m ih =>
    obtain ⟨a', b⟩ := c
    by_cases h : a' = a <;> simp [Memory.get?_cons, h, ih]

/-- Filtering by address keeps exactly the bytes at the addresses the test passes. -/
theorem Memory.get?_filter (p : Nat → Bool) (m : Memory) (a : Nat) :
    Memory.get? (m.filter fun c => p c.1) a = if p a then Memory.get? m a else none := by
  induction m with
  | nil => simp
  | cons c m ih =>
    obtain ⟨a', b⟩ := c
    by_cases hp : p a' <;> by_cases h : a' = a
    · subst h; simp [Memory.get?_cons, hp]
    · simp [Memory.get?_cons, hp, h, ih]
    · subst h; simp [hp, ih]
    · simp [Memory.get?_cons, hp, h, ih]

theorem Memory.get?_cells (base : Nat) (bs : List Byte) (a : Nat) :
    Memory.get? (Memory.cells base bs) a = if base ≤ a then bs[a - base]? else none := by
  induction bs generalizing base with
  | nil => simp [Memory.cells]
  | cons b bs ih =>
    rw [Memory.cells, Memory.get?_cons, ih]
    rcases Nat.lt_trichotomy a base with h | h | h
    · simp [show ¬base = a by omega, show ¬base + 1 ≤ a by omega, show ¬base ≤ a by omega]
    · subst h; simp
    · rw [if_neg (by omega), if_pos (by omega), if_pos (by omega), show a - base = (a - (base + 1)) + 1 by omega,
        List.getElem?_cons_succ]

/-- Read after write: inside the stored range the byte stored there, outside it what was there before. -/
theorem Memory.get?_store (m : Memory) (base : Nat) (bs : List Byte) (a : Nat) :
    Memory.get? (Memory.store m base bs) a
      = if base ≤ a ∧ a < base + bs.length then bs[a - base]? else Memory.get? m a := by
  rw [Memory.store, Memory.get?_append, Memory.get?_append, Memory.get?_cells,
    Memory.get?_filter (fun x => decide (x < base)), Memory.get?_filter (fun x => decide (base + bs.length ≤ x))]
  rcases Nat.lt_or_ge a base with h | h
  · simp [h, show ¬base ≤ a by omega, show ¬base + bs.length ≤ a by omega]
  · rcases Nat.lt_or_ge a (base + bs.length) with h' | h'
    · simp [h, h', show ¬a < base by omega, show a - base < bs.length by omega]
    · simp [h, h', show ¬a < base by omega, show bs.length ≤ a - base by omega]

/-- A store leaves every address outside its range alone. -/
theorem Memory.get?_store_outside (m : Memory) (base : Nat) (bs : List Byte) (a : Nat)
    (h : a < base ∨ base + bs.length ≤ a) : Memory.get? (Memory.store m base bs) a = Memory.get? m a := by
  rw [Memory.get?_store, if_neg (by omega)]

/-- A store puts its k-th byte at base + k. -/
theorem Memory.get?_store_inside (m : Memory) (base : Nat) (bs : List Byte) (k : Nat) (h : k < bs.length) :
    Memory.get? (Memory.store m base bs) (base + k) = some bs[k] := by
  rw [Memory.get?_store, if_pos (by omega)]
  simp [h]

/-- The canonical form says that the addresses rise along the whole list. -/
theorem Memory.wf_iff_pairwise (m : Memory) : Memory.wf m = true ↔ m.Pairwise (fun c c' => c.1 < c'.1) := by
  induction m with
  | nil => simp [Memory.wf]
  | cons c m ih =>
    obtain ⟨a, b⟩ := c
    rw [Memory.wf, Bool.and_eq_true, ih, List.pairwise_cons, List.all_eq_true]
    simp

theorem Memory.cells_bounds (base : Nat) (bs : List Byte) :
    ∀ c ∈ Memory.cells base bs, base ≤ c.1 ∧ c.1 < base + bs.length := by
  induction bs generalizing base with
  | nil => simp [Memory.cells]
  | cons b bs ih =>
    intro c hc
    rw [Memory.cells] at hc
    rcases List.mem_cons.1 hc with rfl | hc
    · simp
    · have := ih (base + 1) c hc
      simp only [List.length_cons]
      omega

theorem Memory.cells_pairwise (base : Nat) (bs : List Byte) :
    (Memory.cells base bs).Pairwise (fun c c' => c.1 < c'.1) := by
  induction bs generalizing base with
  | nil => simp [Memory.cells]
  | cons b bs ih =>
    rw [Memory.cells, List.pairwise_cons]
    exact ⟨fun c hc => (Memory.cells_bounds _ _ c hc).1, ih _⟩

/-- A store keeps the canonical form. -/
theorem Memory.wf_store (m : Memory) (base : Nat) (bs : List Byte) (h : Memory.wf m = true) :
    Memory.wf (Memory.store m base bs) = true := by
  rw [Memory.wf_iff_pairwise] at h ⊢
  rw [Memory.store, List.pairwise_append, List.pairwise_append]
  refine ⟨h.filter _, ⟨Memory.cells_pairwise _ _, h.filter _, ?_⟩, ?_⟩
  · intro c hc c' hc'
    have := Memory.cells_bounds _ _ c hc
    have := (List.mem_filter.1 hc').2
    simp only [decide_eq_true_eq] at this
    omega
  · intro c hc c' hc'
    have hlt := (List.mem_filter.1 hc).2
    simp only [decide_eq_true_eq] at hlt
    rcases List.mem_append.1 hc' with hc' | hc'
    · have := Memory.cells_bounds _ _ c' hc'
      omega
    · have := (List.mem_filter.1 hc').2
      simp only [decide_eq_true_eq] at this
      omega

/-- What a store lists was listed before, or lies in the stored range. -/
theorem Memory.mem_store (m : Memory) (base : Nat) (bs : List Byte) (c : Host.Cell)
    (h : c ∈ Memory.store m base bs) : c ∈ m ∨ (base ≤ c.1 ∧ c.1 < base + bs.length) := by
  rw [Memory.store, List.mem_append, List.mem_append] at h
  rcases h with h | h | h
  · exact .inl (List.mem_filter.1 h).1
  · exact .inr (Memory.cells_bounds _ _ c h)
  · exact .inl (List.mem_filter.1 h).1

@[simp] theorem State.reset_mem_wf : Memory.wf State.reset.mem = true := rfl

/-- A byte that is held is read whatever the read's number. -/
theorem State.byteAt_of_get? (s : State) (a k : Nat) (b : Byte) (h : Memory.get? s.mem a = some b) :
    s.byteAt a k = b := by
  simp [State.byteAt, h]

/-- A byte that nothing has written reads as the free value of the read. -/
theorem State.byteAt_of_unwritten (s : State) (a k : Nat) (h : Memory.get? s.mem a = none) :
    s.byteAt a k = Config.freeByte (s.freeIx + k) := by
  simp [State.byteAt, h]

end Sys2Proof.Machine
end

