-- ==== Sys2Proof/Laws/State.lean ====
section
/-!
SUPPORT. The fields of a state after each named update: one lemma per field and update, each true by unfolding.
-/

namespace Sys2Proof.Machine

/-! ## State.draw -/

@[simp] theorem State.draw_srcWidth (s : State) (n : Nat) : (s.draw n).srcWidth = s.srcWidth := rfl
@[simp] theorem State.draw_srcHeight (s : State) (n : Nat) : (s.draw n).srcHeight = s.srcHeight := rfl
@[simp] theorem State.draw_matWidth (s : State) (n : Nat) : (s.draw n).matWidth = s.matWidth := rfl
@[simp] theorem State.draw_matHeight (s : State) (n : Nat) : (s.draw n).matHeight = s.matHeight := rfl
@[simp] theorem State.draw_corrR (s : State) (n : Nat) : (s.draw n).corrR = s.corrR := rfl
@[simp] theorem State.draw_corrG (s : State) (n : Nat) : (s.draw n).corrG = s.corrG := rfl
@[simp] theorem State.draw_corrB (s : State) (n : Nat) : (s.draw n).corrB = s.corrB := rfl
@[simp] theorem State.draw_brightness (s : State) (n : Nat) : (s.draw n).brightness = s.brightness := rfl
@[simp] theorem State.draw_gammaR (s : State) (n : Nat) : (s.draw n).gammaR = s.gammaR := rfl
@[simp] theorem State.draw_gammaG (s : State) (n : Nat) : (s.draw n).gammaG = s.gammaG := rfl
@[simp] theorem State.draw_gammaB (s : State) (n : Nat) : (s.draw n).gammaB = s.gammaB := rfl
@[simp] theorem State.draw_srcDelayCs (s : State) (n : Nat) : (s.draw n).srcDelayCs = s.srcDelayCs := rfl
@[simp] theorem State.draw_minDelayMs (s : State) (n : Nat) : (s.draw n).minDelayMs = s.minDelayMs := rfl
@[simp] theorem State.draw_payloadLen (s : State) (n : Nat) : (s.draw n).payloadLen = s.payloadLen := rfl
@[simp] theorem State.draw_frameDelayMs (s : State) (n : Nat) : (s.draw n).frameDelayMs = s.frameDelayMs := rfl
@[simp] theorem State.draw_pktLen (s : State) (n : Nat) : (s.draw n).pktLen = s.pktLen := rfl
@[simp] theorem State.draw_busy (s : State) (n : Nat) : (s.draw n).busy = s.busy := rfl
@[simp] theorem State.draw_lutValid (s : State) (n : Nat) : (s.draw n).lutValid = s.lutValid := rfl
@[simp] theorem State.draw_result (s : State) (n : Nat) : (s.draw n).result = s.result := rfl
@[simp] theorem State.draw_cmdOvr (s : State) (n : Nat) : (s.draw n).cmdOvr = s.cmdOvr := rfl
@[simp] theorem State.draw_wrBusy (s : State) (n : Nat) : (s.draw n).wrBusy = s.wrBusy := rfl
@[simp] theorem State.draw_pending (s : State) (n : Nat) : (s.draw n).pending = s.pending := rfl
@[simp] theorem State.draw_mem (s : State) (n : Nat) : (s.draw n).mem = s.mem := rfl
@[simp] theorem State.draw_inputs (s : State) (n : Nat) : (s.draw n).inputs = s.inputs := rfl
@[simp] theorem State.draw_replies (s : State) (n : Nat) : (s.draw n).replies = s.replies := rfl
@[simp] theorem State.draw_engineWait (s : State) (n : Nat) : (s.draw n).engineWait = s.engineWait := rfl
@[simp] theorem State.draw_freeIx (s : State) (n : Nat) : (s.draw n).freeIx = s.freeIx + n := rfl

/-! ## State.storeAt -/

@[simp] theorem State.storeAt_srcWidth (s : State) (a : Nat) (bs : List Byte) : (s.storeAt a bs).srcWidth = s.srcWidth := rfl
@[simp] theorem State.storeAt_srcHeight (s : State) (a : Nat) (bs : List Byte) : (s.storeAt a bs).srcHeight = s.srcHeight := rfl
@[simp] theorem State.storeAt_matWidth (s : State) (a : Nat) (bs : List Byte) : (s.storeAt a bs).matWidth = s.matWidth := rfl
@[simp] theorem State.storeAt_matHeight (s : State) (a : Nat) (bs : List Byte) : (s.storeAt a bs).matHeight = s.matHeight := rfl
@[simp] theorem State.storeAt_corrR (s : State) (a : Nat) (bs : List Byte) : (s.storeAt a bs).corrR = s.corrR := rfl
@[simp] theorem State.storeAt_corrG (s : State) (a : Nat) (bs : List Byte) : (s.storeAt a bs).corrG = s.corrG := rfl
@[simp] theorem State.storeAt_corrB (s : State) (a : Nat) (bs : List Byte) : (s.storeAt a bs).corrB = s.corrB := rfl
@[simp] theorem State.storeAt_brightness (s : State) (a : Nat) (bs : List Byte) : (s.storeAt a bs).brightness = s.brightness := rfl
@[simp] theorem State.storeAt_gammaR (s : State) (a : Nat) (bs : List Byte) : (s.storeAt a bs).gammaR = s.gammaR := rfl
@[simp] theorem State.storeAt_gammaG (s : State) (a : Nat) (bs : List Byte) : (s.storeAt a bs).gammaG = s.gammaG := rfl
@[simp] theorem State.storeAt_gammaB (s : State) (a : Nat) (bs : List Byte) : (s.storeAt a bs).gammaB = s.gammaB := rfl
@[simp] theorem State.storeAt_srcDelayCs (s : State) (a : Nat) (bs : List Byte) : (s.storeAt a bs).srcDelayCs = s.srcDelayCs := rfl
@[simp] theorem State.storeAt_minDelayMs (s : State) (a : Nat) (bs : List Byte) : (s.storeAt a bs).minDelayMs = s.minDelayMs := rfl
@[simp] theorem State.storeAt_payloadLen (s : State) (a : Nat) (bs : List Byte) : (s.storeAt a bs).payloadLen = s.payloadLen := rfl
@[simp] theorem State.storeAt_frameDelayMs (s : State) (a : Nat) (bs : List Byte) : (s.storeAt a bs).frameDelayMs = s.frameDelayMs := rfl
@[simp] theorem State.storeAt_pktLen (s : State) (a : Nat) (bs : List Byte) : (s.storeAt a bs).pktLen = s.pktLen := rfl
@[simp] theorem State.storeAt_busy (s : State) (a : Nat) (bs : List Byte) : (s.storeAt a bs).busy = s.busy := rfl
@[simp] theorem State.storeAt_lutValid (s : State) (a : Nat) (bs : List Byte) : (s.storeAt a bs).lutValid = s.lutValid := rfl
@[simp] theorem State.storeAt_result (s : State) (a : Nat) (bs : List Byte) : (s.storeAt a bs).result = s.result := rfl
@[simp] theorem State.storeAt_cmdOvr (s : State) (a : Nat) (bs : List Byte) : (s.storeAt a bs).cmdOvr = s.cmdOvr := rfl
@[simp] theorem State.storeAt_wrBusy (s : State) (a : Nat) (bs : List Byte) : (s.storeAt a bs).wrBusy = s.wrBusy := rfl
@[simp] theorem State.storeAt_pending (s : State) (a : Nat) (bs : List Byte) : (s.storeAt a bs).pending = s.pending := rfl
@[simp] theorem State.storeAt_mem (s : State) (a : Nat) (bs : List Byte) : (s.storeAt a bs).mem = Memory.store s.mem a bs := rfl
@[simp] theorem State.storeAt_inputs (s : State) (a : Nat) (bs : List Byte) : (s.storeAt a bs).inputs = s.inputs := rfl
@[simp] theorem State.storeAt_replies (s : State) (a : Nat) (bs : List Byte) : (s.storeAt a bs).replies = s.replies := rfl
@[simp] theorem State.storeAt_engineWait (s : State) (a : Nat) (bs : List Byte) : (s.storeAt a bs).engineWait = s.engineWait := rfl
@[simp] theorem State.storeAt_freeIx (s : State) (a : Nat) (bs : List Byte) : (s.storeAt a bs).freeIx = s.freeIx := rfl

/-! ## State.finish -/

@[simp] theorem State.finish_srcWidth (s : State) (c : ResultCode) : (s.finish c).srcWidth = s.srcWidth := rfl
@[simp] theorem State.finish_srcHeight (s : State) (c : ResultCode) : (s.finish c).srcHeight = s.srcHeight := rfl
@[simp] theorem State.finish_matWidth (s : State) (c : ResultCode) : (s.finish c).matWidth = s.matWidth := rfl
@[simp] theorem State.finish_matHeight (s : State) (c : ResultCode) : (s.finish c).matHeight = s.matHeight := rfl
@[simp] theorem State.finish_corrR (s : State) (c : ResultCode) : (s.finish c).corrR = s.corrR := rfl
@[simp] theorem State.finish_corrG (s : State) (c : ResultCode) : (s.finish c).corrG = s.corrG := rfl
@[simp] theorem State.finish_corrB (s : State) (c : ResultCode) : (s.finish c).corrB = s.corrB := rfl
@[simp] theorem State.finish_brightness (s : State) (c : ResultCode) : (s.finish c).brightness = s.brightness := rfl
@[simp] theorem State.finish_gammaR (s : State) (c : ResultCode) : (s.finish c).gammaR = s.gammaR := rfl
@[simp] theorem State.finish_gammaG (s : State) (c : ResultCode) : (s.finish c).gammaG = s.gammaG := rfl
@[simp] theorem State.finish_gammaB (s : State) (c : ResultCode) : (s.finish c).gammaB = s.gammaB := rfl
@[simp] theorem State.finish_srcDelayCs (s : State) (c : ResultCode) : (s.finish c).srcDelayCs = s.srcDelayCs := rfl
@[simp] theorem State.finish_minDelayMs (s : State) (c : ResultCode) : (s.finish c).minDelayMs = s.minDelayMs := rfl
@[simp] theorem State.finish_payloadLen (s : State) (c : ResultCode) : (s.finish c).payloadLen = s.payloadLen := rfl
@[simp] theorem State.finish_frameDelayMs (s : State) (c : ResultCode) : (s.finish c).frameDelayMs = s.frameDelayMs := rfl
@[simp] theorem State.finish_pktLen (s : State) (c : ResultCode) : (s.finish c).pktLen = s.pktLen := rfl
@[simp] theorem State.finish_busy (s : State) (c : ResultCode) : (s.finish c).busy = false := rfl
@[simp] theorem State.finish_lutValid (s : State) (c : ResultCode) : (s.finish c).lutValid = s.lutValid := rfl
@[simp] theorem State.finish_result (s : State) (c : ResultCode) : (s.finish c).result = c := rfl
@[simp] theorem State.finish_cmdOvr (s : State) (c : ResultCode) : (s.finish c).cmdOvr = s.cmdOvr := rfl
@[simp] theorem State.finish_wrBusy (s : State) (c : ResultCode) : (s.finish c).wrBusy = s.wrBusy := rfl
@[simp] theorem State.finish_pending (s : State) (c : ResultCode) : (s.finish c).pending = s.pending := rfl
@[simp] theorem State.finish_mem (s : State) (c : ResultCode) : (s.finish c).mem = s.mem := rfl
@[simp] theorem State.finish_inputs (s : State) (c : ResultCode) : (s.finish c).inputs = s.inputs := rfl
@[simp] theorem State.finish_replies (s : State) (c : ResultCode) : (s.finish c).replies = s.replies := rfl
@[simp] theorem State.finish_engineWait (s : State) (c : ResultCode) : (s.finish c).engineWait = s.engineWait := rfl
@[simp] theorem State.finish_freeIx (s : State) (c : ResultCode) : (s.finish c).freeIx = s.freeIx := rfl

/-! ## State.accept -/

@[simp] theorem State.accept_srcWidth (s : State) (d : Word) : (s.accept d).srcWidth = s.srcWidth := rfl
@[simp] theorem State.accept_srcHeight (s : State) (d : Word) : (s.accept d).srcHeight = s.srcHeight := rfl
@[simp] theorem State.accept_matWidth (s : State) (d : Word) : (s.accept d).matWidth = s.matWidth := rfl
@[simp] theorem State.accept_matHeight (s : State) (d : Word) : (s.accept d).matHeight = s.matHeight := rfl
@[simp] theorem State.accept_corrR (s : State) (d : Word) : (s.accept d).corrR = s.corrR := rfl
@[simp] theorem State.accept_corrG (s : State) (d : Word) : (s.accept d).corrG = s.corrG := rfl
@[simp] theorem State.accept_corrB (s : State) (d : Word) : (s.accept d).corrB = s.corrB := rfl
@[simp] theorem State.accept_brightness (s : State) (d : Word) : (s.accept d).brightness = s.brightness := rfl
@[simp] theorem State.accept_gammaR (s : State) (d : Word) : (s.accept d).gammaR = s.gammaR := rfl
@[simp] theorem State.accept_gammaG (s : State) (d : Word) : (s.accept d).gammaG = s.gammaG := rfl
@[simp] theorem State.accept_gammaB (s : State) (d : Word) : (s.accept d).gammaB = s.gammaB := rfl
@[simp] theorem State.accept_srcDelayCs (s : State) (d : Word) : (s.accept d).srcDelayCs = s.srcDelayCs := rfl
@[simp] theorem State.accept_minDelayMs (s : State) (d : Word) : (s.accept d).minDelayMs = s.minDelayMs := rfl
@[simp] theorem State.accept_payloadLen (s : State) (d : Word) : (s.accept d).payloadLen = s.payloadLen := rfl
@[simp] theorem State.accept_frameDelayMs (s : State) (d : Word) : (s.accept d).frameDelayMs = s.frameDelayMs := rfl
@[simp] theorem State.accept_pktLen (s : State) (d : Word) : (s.accept d).pktLen = s.pktLen := rfl
@[simp] theorem State.accept_busy (s : State) (d : Word) : (s.accept d).busy = true := rfl
@[simp] theorem State.accept_lutValid (s : State) (d : Word) : (s.accept d).lutValid = s.lutValid := rfl
@[simp] theorem State.accept_result (s : State) (d : Word) : (s.accept d).result = s.result := rfl
@[simp] theorem State.accept_cmdOvr (s : State) (d : Word) : (s.accept d).cmdOvr = s.cmdOvr := rfl
@[simp] theorem State.accept_wrBusy (s : State) (d : Word) : (s.accept d).wrBusy = s.wrBusy := rfl
@[simp] theorem State.accept_pending (s : State) (d : Word) : (s.accept d).pending = d := rfl
@[simp] theorem State.accept_mem (s : State) (d : Word) : (s.accept d).mem = s.mem := rfl
@[simp] theorem State.accept_inputs (s : State) (d : Word) : (s.accept d).inputs = s.inputs := rfl
@[simp] theorem State.accept_replies (s : State) (d : Word) : (s.accept d).replies = s.replies := rfl
@[simp] theorem State.accept_engineWait (s : State) (d : Word) : (s.accept d).engineWait = Config.engineDelay s.freeIx := rfl
@[simp] theorem State.accept_freeIx (s : State) (d : Word) : (s.accept d).freeIx = s.freeIx + 1 := rfl

/-! ## State.statusWrite -/

@[simp] theorem State.statusWrite_srcWidth (s : State) (d : Word) : (s.statusWrite d).srcWidth = s.srcWidth := rfl
@[simp] theorem State.statusWrite_srcHeight (s : State) (d : Word) : (s.statusWrite d).srcHeight = s.srcHeight := rfl
@[simp] theorem State.statusWrite_matWidth (s : State) (d : Word) : (s.statusWrite d).matWidth = s.matWidth := rfl
@[simp] theorem State.statusWrite_matHeight (s : State) (d : Word) : (s.statusWrite d).matHeight = s.matHeight := rfl
@[simp] theorem State.statusWrite_corrR (s : State) (d : Word) : (s.statusWrite d).corrR = s.corrR := rfl
@[simp] theorem State.statusWrite_corrG (s : State) (d : Word) : (s.statusWrite d).corrG = s.corrG := rfl
@[simp] theorem State.statusWrite_corrB (s : State) (d : Word) : (s.statusWrite d).corrB = s.corrB := rfl
@[simp] theorem State.statusWrite_brightness (s : State) (d : Word) : (s.statusWrite d).brightness = s.brightness := rfl
@[simp] theorem State.statusWrite_gammaR (s : State) (d : Word) : (s.statusWrite d).gammaR = s.gammaR := rfl
@[simp] theorem State.statusWrite_gammaG (s : State) (d : Word) : (s.statusWrite d).gammaG = s.gammaG := rfl
@[simp] theorem State.statusWrite_gammaB (s : State) (d : Word) : (s.statusWrite d).gammaB = s.gammaB := rfl
@[simp] theorem State.statusWrite_srcDelayCs (s : State) (d : Word) : (s.statusWrite d).srcDelayCs = s.srcDelayCs := rfl
@[simp] theorem State.statusWrite_minDelayMs (s : State) (d : Word) : (s.statusWrite d).minDelayMs = s.minDelayMs := rfl
@[simp] theorem State.statusWrite_payloadLen (s : State) (d : Word) : (s.statusWrite d).payloadLen = s.payloadLen := rfl
@[simp] theorem State.statusWrite_frameDelayMs (s : State) (d : Word) : (s.statusWrite d).frameDelayMs = s.frameDelayMs := rfl
@[simp] theorem State.statusWrite_pktLen (s : State) (d : Word) : (s.statusWrite d).pktLen = s.pktLen := rfl
@[simp] theorem State.statusWrite_busy (s : State) (d : Word) : (s.statusWrite d).busy = s.busy := rfl
@[simp] theorem State.statusWrite_lutValid (s : State) (d : Word) : (s.statusWrite d).lutValid = s.lutValid := rfl
@[simp] theorem State.statusWrite_result (s : State) (d : Word) : (s.statusWrite d).result = s.result := rfl
@[simp] theorem State.statusWrite_cmdOvr (s : State) (d : Word) : (s.statusWrite d).cmdOvr = (s.cmdOvr && !d.getLsbD 8) := rfl
@[simp] theorem State.statusWrite_wrBusy (s : State) (d : Word) : (s.statusWrite d).wrBusy = (s.wrBusy && !d.getLsbD 9) := rfl
@[simp] theorem State.statusWrite_pending (s : State) (d : Word) : (s.statusWrite d).pending = s.pending := rfl
@[simp] theorem State.statusWrite_mem (s : State) (d : Word) : (s.statusWrite d).mem = s.mem := rfl
@[simp] theorem State.statusWrite_inputs (s : State) (d : Word) : (s.statusWrite d).inputs = s.inputs := rfl
@[simp] theorem State.statusWrite_replies (s : State) (d : Word) : (s.statusWrite d).replies = s.replies := rfl
@[simp] theorem State.statusWrite_engineWait (s : State) (d : Word) : (s.statusWrite d).engineWait = s.engineWait := rfl
@[simp] theorem State.statusWrite_freeIx (s : State) (d : Word) : (s.statusWrite d).freeIx = s.freeIx := rfl

/-! ## State.take -/

@[simp] theorem State.take_srcWidth (s : State) (rest : List Input) : (s.take rest).srcWidth = s.srcWidth := rfl
@[simp] theorem State.take_srcHeight (s : State) (rest : List Input) : (s.take rest).srcHeight = s.srcHeight := rfl
@[simp] theorem State.take_matWidth (s : State) (rest : List Input) : (s.take rest).matWidth = s.matWidth := rfl
@[simp] theorem State.take_matHeight (s : State) (rest : List Input) : (s.take rest).matHeight = s.matHeight := rfl
@[simp] theorem State.take_corrR (s : State) (rest : List Input) : (s.take rest).corrR = s.corrR := rfl
@[simp] theorem State.take_corrG (s : State) (rest : List Input) : (s.take rest).corrG = s.corrG := rfl
@[simp] theorem State.take_corrB (s : State) (rest : List Input) : (s.take rest).corrB = s.corrB := rfl
@[simp] theorem State.take_brightness (s : State) (rest : List Input) : (s.take rest).brightness = s.brightness := rfl
@[simp] theorem State.take_gammaR (s : State) (rest : List Input) : (s.take rest).gammaR = s.gammaR := rfl
@[simp] theorem State.take_gammaG (s : State) (rest : List Input) : (s.take rest).gammaG = s.gammaG := rfl
@[simp] theorem State.take_gammaB (s : State) (rest : List Input) : (s.take rest).gammaB = s.gammaB := rfl
@[simp] theorem State.take_srcDelayCs (s : State) (rest : List Input) : (s.take rest).srcDelayCs = s.srcDelayCs := rfl
@[simp] theorem State.take_minDelayMs (s : State) (rest : List Input) : (s.take rest).minDelayMs = s.minDelayMs := rfl
@[simp] theorem State.take_payloadLen (s : State) (rest : List Input) : (s.take rest).payloadLen = s.payloadLen := rfl
@[simp] theorem State.take_frameDelayMs (s : State) (rest : List Input) : (s.take rest).frameDelayMs = s.frameDelayMs := rfl
@[simp] theorem State.take_pktLen (s : State) (rest : List Input) : (s.take rest).pktLen = s.pktLen := rfl
@[simp] theorem State.take_busy (s : State) (rest : List Input) : (s.take rest).busy = s.busy := rfl
@[simp] theorem State.take_lutValid (s : State) (rest : List Input) : (s.take rest).lutValid = s.lutValid := rfl
@[simp] theorem State.take_result (s : State) (rest : List Input) : (s.take rest).result = s.result := rfl
@[simp] theorem State.take_cmdOvr (s : State) (rest : List Input) : (s.take rest).cmdOvr = s.cmdOvr := rfl
@[simp] theorem State.take_wrBusy (s : State) (rest : List Input) : (s.take rest).wrBusy = s.wrBusy := rfl
@[simp] theorem State.take_pending (s : State) (rest : List Input) : (s.take rest).pending = s.pending := rfl
@[simp] theorem State.take_mem (s : State) (rest : List Input) : (s.take rest).mem = s.mem := rfl
@[simp] theorem State.take_inputs (s : State) (rest : List Input) : (s.take rest).inputs = rest := rfl
@[simp] theorem State.take_replies (s : State) (rest : List Input) : (s.take rest).replies = s.replies := rfl
@[simp] theorem State.take_engineWait (s : State) (rest : List Input) : (s.take rest).engineWait = s.engineWait - 1 := rfl
@[simp] theorem State.take_freeIx (s : State) (rest : List Input) : (s.take rest).freeIx = s.freeIx := rfl

/-! ## State.resetRegisters -/

@[simp] theorem State.resetRegisters_srcWidth (s : State) : (s.resetRegisters).srcWidth = State.reset.srcWidth := rfl
@[simp] theorem State.resetRegisters_srcHeight (s : State) : (s.resetRegisters).srcHeight = State.reset.srcHeight := rfl
@[simp] theorem State.resetRegisters_matWidth (s : State) : (s.resetRegisters).matWidth = State.reset.matWidth := rfl
@[simp] theorem State.resetRegisters_matHeight (s : State) : (s.resetRegisters).matHeight = State.reset.matHeight := rfl
@[simp] theorem State.resetRegisters_corrR (s : State) : (s.resetRegisters).corrR = State.reset.corrR := rfl
@[simp] theorem State.resetRegisters_corrG (s : State) : (s.resetRegisters).corrG = State.reset.corrG := rfl
@[simp] theorem State.resetRegisters_corrB (s : State) : (s.resetRegisters).corrB = State.reset.corrB := rfl
@[simp] theorem State.resetRegisters_brightness (s : State) : (s.resetRegisters).brightness = State.reset.brightness := rfl
@[simp] theorem State.resetRegisters_gammaR (s : State) : (s.resetRegisters).gammaR = State.reset.gammaR := rfl
@[simp] theorem State.resetRegisters_gammaG (s : State) : (s.resetRegisters).gammaG = State.reset.gammaG := rfl
@[simp] theorem State.resetRegisters_gammaB (s : State) : (s.resetRegisters).gammaB = State.reset.gammaB := rfl
@[simp] theorem State.resetRegisters_srcDelayCs (s : State) : (s.resetRegisters).srcDelayCs = State.reset.srcDelayCs := rfl
@[simp] theorem State.resetRegisters_minDelayMs (s : State) : (s.resetRegisters).minDelayMs = State.reset.minDelayMs := rfl
@[simp] theorem State.resetRegisters_payloadLen (s : State) : (s.resetRegisters).payloadLen = State.reset.payloadLen := rfl
@[simp] theorem State.resetRegisters_frameDelayMs (s : State) : (s.resetRegisters).frameDelayMs = 0 := rfl
@[simp] theorem State.resetRegisters_pktLen (s : State) : (s.resetRegisters).pktLen = 0 := rfl
@[simp] theorem State.resetRegisters_busy (s : State) : (s.resetRegisters).busy = s.busy := rfl
@[simp] theorem State.resetRegisters_lutValid (s : State) : (s.resetRegisters).lutValid = false := rfl
@[simp] theorem State.resetRegisters_result (s : State) : (s.resetRegisters).result = s.result := rfl
@[simp] theorem State.resetRegisters_cmdOvr (s : State) : (s.resetRegisters).cmdOvr = false := rfl
@[simp] theorem State.resetRegisters_wrBusy (s : State) : (s.resetRegisters).wrBusy = false := rfl
@[simp] theorem State.resetRegisters_pending (s : State) : (s.resetRegisters).pending = s.pending := rfl
@[simp] theorem State.resetRegisters_mem (s : State) : (s.resetRegisters).mem = s.mem := rfl
@[simp] theorem State.resetRegisters_inputs (s : State) : (s.resetRegisters).inputs = s.inputs := rfl
@[simp] theorem State.resetRegisters_replies (s : State) : (s.resetRegisters).replies = s.replies := rfl
@[simp] theorem State.resetRegisters_engineWait (s : State) : (s.resetRegisters).engineWait = s.engineWait := rfl
@[simp] theorem State.resetRegisters_freeIx (s : State) : (s.resetRegisters).freeIx = s.freeIx := rfl

/-! ## State.hardReset -/

@[simp] theorem State.hardReset_srcWidth (s : State) : (s.hardReset).srcWidth = State.reset.srcWidth := rfl
@[simp] theorem State.hardReset_srcHeight (s : State) : (s.hardReset).srcHeight = State.reset.srcHeight := rfl
@[simp] theorem State.hardReset_matWidth (s : State) : (s.hardReset).matWidth = State.reset.matWidth := rfl
@[simp] theorem State.hardReset_matHeight (s : State) : (s.hardReset).matHeight = State.reset.matHeight := rfl
@[simp] theorem State.hardReset_corrR (s : State) : (s.hardReset).corrR = State.reset.corrR := rfl
@[simp] theorem State.hardReset_corrG (s : State) : (s.hardReset).corrG = State.reset.corrG := rfl
@[simp] theorem State.hardReset_corrB (s : State) : (s.hardReset).corrB = State.reset.corrB := rfl
@[simp] theorem State.hardReset_brightness (s : State) : (s.hardReset).brightness = State.reset.brightness := rfl
@[simp] theorem State.hardReset_gammaR (s : State) : (s.hardReset).gammaR = State.reset.gammaR := rfl
@[simp] theorem State.hardReset_gammaG (s : State) : (s.hardReset).gammaG = State.reset.gammaG := rfl
@[simp] theorem State.hardReset_gammaB (s : State) : (s.hardReset).gammaB = State.reset.gammaB := rfl
@[simp] theorem State.hardReset_srcDelayCs (s : State) : (s.hardReset).srcDelayCs = State.reset.srcDelayCs := rfl
@[simp] theorem State.hardReset_minDelayMs (s : State) : (s.hardReset).minDelayMs = State.reset.minDelayMs := rfl
@[simp] theorem State.hardReset_payloadLen (s : State) : (s.hardReset).payloadLen = State.reset.payloadLen := rfl
@[simp] theorem State.hardReset_frameDelayMs (s : State) : (s.hardReset).frameDelayMs = 0 := rfl
@[simp] theorem State.hardReset_pktLen (s : State) : (s.hardReset).pktLen = 0 := rfl
@[simp] theorem State.hardReset_busy (s : State) : (s.hardReset).busy = false := rfl
@[simp] theorem State.hardReset_lutValid (s : State) : (s.hardReset).lutValid = false := rfl
@[simp] theorem State.hardReset_result (s : State) : (s.hardReset).result = .ok := rfl
@[simp] theorem State.hardReset_cmdOvr (s : State) : (s.hardReset).cmdOvr = false := rfl
@[simp] theorem State.hardReset_wrBusy (s : State) : (s.hardReset).wrBusy = false := rfl
@[simp] theorem State.hardReset_pending (s : State) : (s.hardReset).pending = 0 := rfl
@[simp] theorem State.hardReset_mem (s : State) : (s.hardReset).mem = [] := rfl
@[simp] theorem State.hardReset_inputs (s : State) : (s.hardReset).inputs = s.inputs := rfl
@[simp] theorem State.hardReset_replies (s : State) : (s.hardReset).replies = s.replies := rfl
@[simp] theorem State.hardReset_engineWait (s : State) : (s.hardReset).engineWait = 0 := rfl
@[simp] theorem State.hardReset_freeIx (s : State) : (s.hardReset).freeIx = s.freeIx := rfl

/-! ## State.sampled -/

@[simp] theorem State.sampled_srcWidth (s : State) : (s.sampled).srcWidth = s.srcWidth := rfl
@[simp] theorem State.sampled_srcHeight (s : State) : (s.sampled).srcHeight = s.srcHeight := rfl
@[simp] theorem State.sampled_matWidth (s : State) : (s.sampled).matWidth = s.matWidth := rfl
@[simp] theorem State.sampled_matHeight (s : State) : (s.sampled).matHeight = s.matHeight := rfl
@[simp] theorem State.sampled_corrR (s : State) : (s.sampled).corrR = s.corrR := rfl
@[simp] theorem State.sampled_corrG (s : State) : (s.sampled).corrG = s.corrG := rfl
@[simp] theorem State.sampled_corrB (s : State) : (s.sampled).corrB = s.corrB := rfl
@[simp] theorem State.sampled_brightness (s : State) : (s.sampled).brightness = s.brightness := rfl
@[simp] theorem State.sampled_gammaR (s : State) : (s.sampled).gammaR = s.gammaR := rfl
@[simp] theorem State.sampled_gammaG (s : State) : (s.sampled).gammaG = s.gammaG := rfl
@[simp] theorem State.sampled_gammaB (s : State) : (s.sampled).gammaB = s.gammaB := rfl
@[simp] theorem State.sampled_srcDelayCs (s : State) : (s.sampled).srcDelayCs = s.srcDelayCs := rfl
@[simp] theorem State.sampled_minDelayMs (s : State) : (s.sampled).minDelayMs = s.minDelayMs := rfl
@[simp] theorem State.sampled_payloadLen (s : State) : (s.sampled).payloadLen = BitVec.ofNat 32 s.frameLen := rfl
@[simp] theorem State.sampled_frameDelayMs (s : State) : (s.sampled).frameDelayMs = resolveDelay s.opCs s.minDelayMs := rfl
@[simp] theorem State.sampled_pktLen (s : State) : (s.sampled).pktLen = s.pktLen := rfl
@[simp] theorem State.sampled_busy (s : State) : (s.sampled).busy = s.busy := rfl
@[simp] theorem State.sampled_lutValid (s : State) : (s.sampled).lutValid = s.lutValid := rfl
@[simp] theorem State.sampled_result (s : State) : (s.sampled).result = s.result := rfl
@[simp] theorem State.sampled_cmdOvr (s : State) : (s.sampled).cmdOvr = s.cmdOvr := rfl
@[simp] theorem State.sampled_wrBusy (s : State) : (s.sampled).wrBusy = s.wrBusy := rfl
@[simp] theorem State.sampled_pending (s : State) : (s.sampled).pending = s.pending := rfl
@[simp] theorem State.sampled_mem (s : State) : (s.sampled).mem = Memory.store s.mem Region.frame.base ((List.range s.frameLen).map s.frameByte) := rfl
@[simp] theorem State.sampled_inputs (s : State) : (s.sampled).inputs = s.inputs := rfl
@[simp] theorem State.sampled_replies (s : State) : (s.sampled).replies = s.replies := rfl
@[simp] theorem State.sampled_engineWait (s : State) : (s.sampled).engineWait = s.engineWait := rfl
@[simp] theorem State.sampled_freeIx (s : State) : (s.sampled).freeIx = s.freeIx + 2 * s.frameLen := rfl

/-! ## State.answer -/

@[simp] theorem State.answer_srcWidth (p : State × Reply) : (State.answer p).srcWidth = p.1.srcWidth := rfl
@[simp] theorem State.answer_srcHeight (p : State × Reply) : (State.answer p).srcHeight = p.1.srcHeight := rfl
@[simp] theorem State.answer_matWidth (p : State × Reply) : (State.answer p).matWidth = p.1.matWidth := rfl
@[simp] theorem State.answer_matHeight (p : State × Reply) : (State.answer p).matHeight = p.1.matHeight := rfl
@[simp] theorem State.answer_corrR (p : State × Reply) : (State.answer p).corrR = p.1.corrR := rfl
@[simp] theorem State.answer_corrG (p : State × Reply) : (State.answer p).corrG = p.1.corrG := rfl
@[simp] theorem State.answer_corrB (p : State × Reply) : (State.answer p).corrB = p.1.corrB := rfl
@[simp] theorem State.answer_brightness (p : State × Reply) : (State.answer p).brightness = p.1.brightness := rfl
@[simp] theorem State.answer_gammaR (p : State × Reply) : (State.answer p).gammaR = p.1.gammaR := rfl
@[simp] theorem State.answer_gammaG (p : State × Reply) : (State.answer p).gammaG = p.1.gammaG := rfl
@[simp] theorem State.answer_gammaB (p : State × Reply) : (State.answer p).gammaB = p.1.gammaB := rfl
@[simp] theorem State.answer_srcDelayCs (p : State × Reply) : (State.answer p).srcDelayCs = p.1.srcDelayCs := rfl
@[simp] theorem State.answer_minDelayMs (p : State × Reply) : (State.answer p).minDelayMs = p.1.minDelayMs := rfl
@[simp] theorem State.answer_payloadLen (p : State × Reply) : (State.answer p).payloadLen = p.1.payloadLen := rfl
@[simp] theorem State.answer_frameDelayMs (p : State × Reply) : (State.answer p).frameDelayMs = p.1.frameDelayMs := rfl
@[simp] theorem State.answer_pktLen (p : State × Reply) : (State.answer p).pktLen = p.1.pktLen := rfl
@[simp] theorem State.answer_busy (p : State × Reply) : (State.answer p).busy = p.1.busy := rfl
@[simp] theorem State.answer_lutValid (p : State × Reply) : (State.answer p).lutValid = p.1.lutValid := rfl
@[simp] theorem State.answer_result (p : State × Reply) : (State.answer p).result = p.1.result := rfl
@[simp] theorem State.answer_cmdOvr (p : State × Reply) : (State.answer p).cmdOvr = p.1.cmdOvr := rfl
@[simp] theorem State.answer_wrBusy (p : State × Reply) : (State.answer p).wrBusy = p.1.wrBusy := rfl
@[simp] theorem State.answer_pending (p : State × Reply) : (State.answer p).pending = p.1.pending := rfl
@[simp] theorem State.answer_mem (p : State × Reply) : (State.answer p).mem = p.1.mem := rfl
@[simp] theorem State.answer_inputs (p : State × Reply) : (State.answer p).inputs = p.1.inputs := rfl
@[simp] theorem State.answer_replies (p : State × Reply) : (State.answer p).replies = p.1.replies ++ [p.2] := rfl
@[simp] theorem State.answer_engineWait (p : State × Reply) : (State.answer p).engineWait = p.1.engineWait := rfl
@[simp] theorem State.answer_freeIx (p : State × Reply) : (State.answer p).freeIx = p.1.freeIx := rfl

/-! ## State.withFetchWord -/

@[simp] theorem State.withFetchWord_srcWidth (s : State) (n w : Nat) : (s.withFetchWord n w).srcWidth = s.srcWidth := rfl
@[simp] theorem State.withFetchWord_srcHeight (s : State) (n w : Nat) : (s.withFetchWord n w).srcHeight = s.srcHeight := rfl
@[simp] theorem State.withFetchWord_matWidth (s : State) (n w : Nat) : (s.withFetchWord n w).matWidth = s.matWidth := rfl
@[simp] theorem State.withFetchWord_matHeight (s : State) (n w : Nat) : (s.withFetchWord n w).matHeight = s.matHeight := rfl
@[simp] theorem State.withFetchWord_corrR (s : State) (n w : Nat) : (s.withFetchWord n w).corrR = s.corrR := rfl
@[simp] theorem State.withFetchWord_corrG (s : State) (n w : Nat) : (s.withFetchWord n w).corrG = s.corrG := rfl
@[simp] theorem State.withFetchWord_corrB (s : State) (n w : Nat) : (s.withFetchWord n w).corrB = s.corrB := rfl
@[simp] theorem State.withFetchWord_brightness (s : State) (n w : Nat) : (s.withFetchWord n w).brightness = s.brightness := rfl
@[simp] theorem State.withFetchWord_gammaR (s : State) (n w : Nat) : (s.withFetchWord n w).gammaR = s.gammaR := rfl
@[simp] theorem State.withFetchWord_gammaG (s : State) (n w : Nat) : (s.withFetchWord n w).gammaG = s.gammaG := rfl
@[simp] theorem State.withFetchWord_gammaB (s : State) (n w : Nat) : (s.withFetchWord n w).gammaB = s.gammaB := rfl
@[simp] theorem State.withFetchWord_srcDelayCs (s : State) (n w : Nat) : (s.withFetchWord n w).srcDelayCs = s.srcDelayCs := rfl
@[simp] theorem State.withFetchWord_minDelayMs (s : State) (n w : Nat) : (s.withFetchWord n w).minDelayMs = s.minDelayMs := rfl
@[simp] theorem State.withFetchWord_payloadLen (s : State) (n w : Nat) : (s.withFetchWord n w).payloadLen = s.payloadLen := rfl
@[simp] theorem State.withFetchWord_frameDelayMs (s : State) (n w : Nat) : (s.withFetchWord n w).frameDelayMs = s.frameDelayMs := rfl
@[simp] theorem State.withFetchWord_pktLen (s : State) (n w : Nat) : (s.withFetchWord n w).pktLen = s.pktLen := rfl
@[simp] theorem State.withFetchWord_busy (s : State) (n w : Nat) : (s.withFetchWord n w).busy = true := rfl
@[simp] theorem State.withFetchWord_lutValid (s : State) (n w : Nat) : (s.withFetchWord n w).lutValid = s.lutValid := rfl
@[simp] theorem State.withFetchWord_result (s : State) (n w : Nat) : (s.withFetchWord n w).result = s.result := rfl
@[simp] theorem State.withFetchWord_cmdOvr (s : State) (n w : Nat) : (s.withFetchWord n w).cmdOvr = s.cmdOvr := rfl
@[simp] theorem State.withFetchWord_wrBusy (s : State) (n w : Nat) : (s.withFetchWord n w).wrBusy = s.wrBusy := rfl
@[simp] theorem State.withFetchWord_pending (s : State) (n w : Nat) : (s.withFetchWord n w).pending = tableWord n w := rfl
@[simp] theorem State.withFetchWord_mem (s : State) (n w : Nat) : (s.withFetchWord n w).mem = s.mem := rfl
@[simp] theorem State.withFetchWord_inputs (s : State) (n w : Nat) : (s.withFetchWord n w).inputs = s.inputs := rfl
@[simp] theorem State.withFetchWord_replies (s : State) (n w : Nat) : (s.withFetchWord n w).replies = s.replies := rfl
@[simp] theorem State.withFetchWord_engineWait (s : State) (n w : Nat) : (s.withFetchWord n w).engineWait = 0 := rfl
@[simp] theorem State.withFetchWord_freeIx (s : State) (n w : Nat) : (s.withFetchWord n w).freeIx = s.freeIx := rfl

end Sys2Proof.Machine
end

