-- ==== Sys2Proof/Laws/Port.lean ====
section
/-!
SUPPORT. What the host port's operations can answer, said once: the targets of a legal transaction, the states a read, a
write and an input lead to.
-/

namespace Sys2Proof.Machine

/-- A region that is found holds the bytes asked for. -/
theorem Region.contains_of_find (a n : Nat) (r : Region) (h : Region.find a n = some r) : r.contains a n = true := by
  unfold Region.find at h
  exact (List.find?_eq_some_iff_append.1 h).1

/-- A region holds the bytes a to a+n-1 exactly when they lie between its first and its last address. -/
theorem Region.contains_iff (r : Region) (a n : Nat) :
    r.contains a n = true ↔ r.base ≤ a ∧ a + n ≤ r.base + r.size := by
  simp [Region.contains]

/-- An address of a storage region is storage. -/
theorem isStorage_of_contains (r : Region) (a : Nat) (hr : r.holdsBytes = true) (h : r.contains a 1 = true) :
    isStorage a = true := by
  cases r <;> simp_all [isStorage, Region.all, Region.holdsBytes]

/-- Only a transaction of 1, 2 or 4 bytes at a multiple of its size has a target. -/
theorem target_size (a : Word) (n : Nat) (w : Bool) (t : Target) (h : target a n w = some t) :
    (n = 1 ∨ n = 2 ∨ n = 4) ∧ a.toNat % n = 0 := by
  unfold target at h
  split at h
  · assumption
  · cases h

/-- A byte target lies in one storage region, which the host may write where the transaction is a write. -/
theorem target_bytes (a : Word) (n : Nat) (w : Bool) (r : Region) (h : target a n w = some (.bytes r)) :
    r.holdsBytes = true ∧ r.contains a.toNat n = true ∧ (w = true → r.readOnly = false) := by
  unfold target at h
  split at h
  · split at h
    · cases h
    · split at h
      · cases hr : Csr.ofOffset a.toNat <;> simp [hr] at h
      · cases h
    · next r' hne hfind =>
      split at h
      · cases h
      · next hro =>
        cases h
        refine ⟨?_, Region.contains_of_find _ _ _ hfind, fun hw => ?_⟩
        · cases r <;> simp_all [Region.holdsBytes]
        · simpa [hw] using hro
  · cases h

/-- A register target is an aligned 4-byte transaction at the register's offset. -/
theorem target_register (a : Word) (n : Nat) (w : Bool) (r : Csr) (h : target a n w = some (.register r)) :
    n = 4 ∧ a.toNat = r.offset := by
  unfold target at h
  split at h
  · split at h
    · cases h
    · split at h
      · next hn =>
        refine ⟨hn, ?_⟩
        cases hr : Csr.ofOffset a.toNat with
        | none => simp [hr] at h
        | some r' =>
          simp only [hr, Option.map_some, Option.some.injEq, Target.register.injEq] at h
          subst h
          unfold Csr.ofOffset at hr
          exact (beq_iff_eq.1 (List.find?_eq_some_iff_append.1 hr).1).symm
      · cases h
    · split at h
      · cases h
      · cases h
  · cases h

/-- A read leaves the state alone but for the free values it draws. -/
theorem hostRead_state (s : State) (a : Word) (n : Nat) :
    (hostRead s a n).1 = s ∨ (hostRead s a n).1 = s.draw n := by
  unfold hostRead
  split <;> simp

/-- What a write can do to the state. -/
theorem hostWrite_cases (s : State) (a : Word) (n : Nat) (d : Word) :
    (hostWrite s a n d).1 = s
    ∨ (hostWrite s a n d).1 = s.statusWrite d
    ∨ (s.busy = true ∧ ((hostWrite s a n d).1 = { s with cmdOvr := true } ∨ (hostWrite s a n d).1 = { s with wrBusy := true }))
    ∨ (s.busy = false ∧ (hostWrite s a n d).1 = s.accept d)
    ∨ (s.busy = false ∧ ∃ r, r ≠ .status ∧ r ≠ .cmd ∧ (hostWrite s a n d).1 = s.csrWrite r d)
    ∨ (s.busy = false ∧ ∃ r, target a n true = some (.bytes r)
        ∧ (hostWrite s a n d).1 = s.storeAt a.toNat (bytesOfWord n d)) := by
  unfold hostWrite
  cases hb : s.busy <;> split <;> simp_all
  exact .inr (.inr (.inr ⟨_, ‹_›, ‹_›, rfl⟩))

@[simp] theorem bytesOfWord_length (n : Nat) (d : Word) : (bytesOfWord n d).length = n := by simp [bytesOfWord]

/-! ## The fields a read and a write leave alone -/

/-- A read changes no field but the count of free values drawn. -/
theorem hostRead_eq (s : State) (a : Word) (n : Nat) :
    (hostRead s a n).1 = { s with freeIx := (hostRead s a n).1.freeIx } := by
  obtain e | e := hostRead_state s a n
  · rw [e]
  · rw [e]; rfl

@[simp] theorem hostRead_srcWidth (s : State) (a : Word) (n : Nat) : (hostRead s a n).1.srcWidth = s.srcWidth :=
  (congrArg State.srcWidth (hostRead_eq s a n) :)

@[simp] theorem hostRead_srcHeight (s : State) (a : Word) (n : Nat) : (hostRead s a n).1.srcHeight = s.srcHeight :=
  (congrArg State.srcHeight (hostRead_eq s a n) :)

@[simp] theorem hostRead_matWidth (s : State) (a : Word) (n : Nat) : (hostRead s a n).1.matWidth = s.matWidth :=
  (congrArg State.matWidth (hostRead_eq s a n) :)

@[simp] theorem hostRead_matHeight (s : State) (a : Word) (n : Nat) : (hostRead s a n).1.matHeight = s.matHeight :=
  (congrArg State.matHeight (hostRead_eq s a n) :)

@[simp] theorem hostRead_corrR (s : State) (a : Word) (n : Nat) : (hostRead s a n).1.corrR = s.corrR :=
  (congrArg State.corrR (hostRead_eq s a n) :)

@[simp] theorem hostRead_corrG (s : State) (a : Word) (n : Nat) : (hostRead s a n).1.corrG = s.corrG :=
  (congrArg State.corrG (hostRead_eq s a n) :)

@[simp] theorem hostRead_corrB (s : State) (a : Word) (n : Nat) : (hostRead s a n).1.corrB = s.corrB :=
  (congrArg State.corrB (hostRead_eq s a n) :)

@[simp] theorem hostRead_brightness (s : State) (a : Word) (n : Nat) : (hostRead s a n).1.brightness = s.brightness :=
  (congrArg State.brightness (hostRead_eq s a n) :)

@[simp] theorem hostRead_gammaR (s : State) (a : Word) (n : Nat) : (hostRead s a n).1.gammaR = s.gammaR :=
  (congrArg State.gammaR (hostRead_eq s a n) :)

@[simp] theorem hostRead_gammaG (s : State) (a : Word) (n : Nat) : (hostRead s a n).1.gammaG = s.gammaG :=
  (congrArg State.gammaG (hostRead_eq s a n) :)

@[simp] theorem hostRead_gammaB (s : State) (a : Word) (n : Nat) : (hostRead s a n).1.gammaB = s.gammaB :=
  (congrArg State.gammaB (hostRead_eq s a n) :)

@[simp] theorem hostRead_srcDelayCs (s : State) (a : Word) (n : Nat) : (hostRead s a n).1.srcDelayCs = s.srcDelayCs :=
  (congrArg State.srcDelayCs (hostRead_eq s a n) :)

@[simp] theorem hostRead_minDelayMs (s : State) (a : Word) (n : Nat) : (hostRead s a n).1.minDelayMs = s.minDelayMs :=
  (congrArg State.minDelayMs (hostRead_eq s a n) :)

@[simp] theorem hostRead_payloadLen (s : State) (a : Word) (n : Nat) : (hostRead s a n).1.payloadLen = s.payloadLen :=
  (congrArg State.payloadLen (hostRead_eq s a n) :)

@[simp] theorem hostRead_frameDelayMs (s : State) (a : Word) (n : Nat) : (hostRead s a n).1.frameDelayMs = s.frameDelayMs :=
  (congrArg State.frameDelayMs (hostRead_eq s a n) :)

@[simp] theorem hostRead_pktLen (s : State) (a : Word) (n : Nat) : (hostRead s a n).1.pktLen = s.pktLen :=
  (congrArg State.pktLen (hostRead_eq s a n) :)

@[simp] theorem hostRead_busy (s : State) (a : Word) (n : Nat) : (hostRead s a n).1.busy = s.busy :=
  (congrArg State.busy (hostRead_eq s a n) :)

@[simp] theorem hostRead_lutValid (s : State) (a : Word) (n : Nat) : (hostRead s a n).1.lutValid = s.lutValid :=
  (congrArg State.lutValid (hostRead_eq s a n) :)

@[simp] theorem hostRead_result (s : State) (a : Word) (n : Nat) : (hostRead s a n).1.result = s.result :=
  (congrArg State.result (hostRead_eq s a n) :)

@[simp] theorem hostRead_cmdOvr (s : State) (a : Word) (n : Nat) : (hostRead s a n).1.cmdOvr = s.cmdOvr :=
  (congrArg State.cmdOvr (hostRead_eq s a n) :)

@[simp] theorem hostRead_wrBusy (s : State) (a : Word) (n : Nat) : (hostRead s a n).1.wrBusy = s.wrBusy :=
  (congrArg State.wrBusy (hostRead_eq s a n) :)

@[simp] theorem hostRead_pending (s : State) (a : Word) (n : Nat) : (hostRead s a n).1.pending = s.pending :=
  (congrArg State.pending (hostRead_eq s a n) :)

@[simp] theorem hostRead_mem (s : State) (a : Word) (n : Nat) : (hostRead s a n).1.mem = s.mem :=
  (congrArg State.mem (hostRead_eq s a n) :)

@[simp] theorem hostRead_inputs (s : State) (a : Word) (n : Nat) : (hostRead s a n).1.inputs = s.inputs :=
  (congrArg State.inputs (hostRead_eq s a n) :)

@[simp] theorem hostRead_replies (s : State) (a : Word) (n : Nat) : (hostRead s a n).1.replies = s.replies :=
  (congrArg State.replies (hostRead_eq s a n) :)

@[simp] theorem hostRead_engineWait (s : State) (a : Word) (n : Nat) : (hostRead s a n).1.engineWait = s.engineWait :=
  (congrArg State.engineWait (hostRead_eq s a n) :)

/-- A register write leaves the engine's registers, STATUS, `pending`, the memory and the model's own fields alone. -/
theorem State.csrWrite_frame (s : State) (r : Csr) (d : Word) :
    (s.csrWrite r d).frameDelayMs = s.frameDelayMs ∧ (s.csrWrite r d).pktLen = s.pktLen
      ∧ (s.csrWrite r d).busy = s.busy ∧ (s.csrWrite r d).lutValid = s.lutValid ∧ (s.csrWrite r d).result = s.result
      ∧ (s.csrWrite r d).cmdOvr = s.cmdOvr ∧ (s.csrWrite r d).wrBusy = s.wrBusy
      ∧ (s.csrWrite r d).pending = s.pending ∧ (s.csrWrite r d).mem = s.mem ∧ (s.csrWrite r d).inputs = s.inputs
      ∧ (s.csrWrite r d).replies = s.replies ∧ (s.csrWrite r d).engineWait = s.engineWait
      ∧ (s.csrWrite r d).freeIx = s.freeIx := by
  cases r <;> simp [State.csrWrite]

/-- While BUSY = 1 a write moves the two sticky bits at most (R63). -/
theorem hostWrite_of_busy (s : State) (a : Word) (n : Nat) (d : Word) (hb : s.busy = true) :
    (hostWrite s a n d).1 = { s with cmdOvr := (hostWrite s a n d).1.cmdOvr, wrBusy := (hostWrite s a n d).1.wrBusy } := by
  obtain e | e | ⟨_, e | e⟩ | ⟨h, _⟩ | ⟨h, _⟩ | ⟨h, _⟩ := hostWrite_cases s a n d
  · rw [e]
  · rw [e]; rfl
  · rw [e]
  · rw [e]
  all_goals (rw [hb] at h; cases h)

@[simp] theorem hostWrite_lutValid (s : State) (a : Word) (n : Nat) (d : Word) :
    (hostWrite s a n d).1.lutValid = s.lutValid := by
  obtain e | e | ⟨_, e | e⟩ | ⟨_, e⟩ | ⟨_, r, _, _, e⟩ | ⟨_, r, _, e⟩ := hostWrite_cases s a n d <;> rw [e]
  · rfl
  · rfl
  · simp [State.csrWrite_frame s r d]
  · rfl

@[simp] theorem hostWrite_result (s : State) (a : Word) (n : Nat) (d : Word) :
    (hostWrite s a n d).1.result = s.result := by
  obtain e | e | ⟨_, e | e⟩ | ⟨_, e⟩ | ⟨_, r, _, _, e⟩ | ⟨_, r, _, e⟩ := hostWrite_cases s a n d <;> rw [e]
  · rfl
  · rfl
  · simp [State.csrWrite_frame s r d]
  · rfl

@[simp] theorem hostWrite_frameDelayMs (s : State) (a : Word) (n : Nat) (d : Word) :
    (hostWrite s a n d).1.frameDelayMs = s.frameDelayMs := by
  obtain e | e | ⟨_, e | e⟩ | ⟨_, e⟩ | ⟨_, r, _, _, e⟩ | ⟨_, r, _, e⟩ := hostWrite_cases s a n d <;> rw [e]
  · rfl
  · rfl
  · simp [State.csrWrite_frame s r d]
  · rfl

@[simp] theorem hostWrite_pktLen (s : State) (a : Word) (n : Nat) (d : Word) :
    (hostWrite s a n d).1.pktLen = s.pktLen := by
  obtain e | e | ⟨_, e | e⟩ | ⟨_, e⟩ | ⟨_, r, _, _, e⟩ | ⟨_, r, _, e⟩ := hostWrite_cases s a n d <;> rw [e]
  · rfl
  · rfl
  · simp [State.csrWrite_frame s r d]
  · rfl

@[simp] theorem hostWrite_inputs (s : State) (a : Word) (n : Nat) (d : Word) :
    (hostWrite s a n d).1.inputs = s.inputs := by
  obtain e | e | ⟨_, e | e⟩ | ⟨_, e⟩ | ⟨_, r, _, _, e⟩ | ⟨_, r, _, e⟩ := hostWrite_cases s a n d <;> rw [e]
  · rfl
  · rfl
  · simp [State.csrWrite_frame s r d]
  · rfl

@[simp] theorem hostWrite_replies (s : State) (a : Word) (n : Nat) (d : Word) :
    (hostWrite s a n d).1.replies = s.replies := by
  obtain e | e | ⟨_, e | e⟩ | ⟨_, e⟩ | ⟨_, r, _, _, e⟩ | ⟨_, r, _, e⟩ := hostWrite_cases s a n d <;> rw [e]
  · rfl
  · rfl
  · simp [State.csrWrite_frame s r d]
  · rfl

/-- A write leaves the stored bytes alone, or stores into a region the host may write. -/
theorem hostWrite_mem (s : State) (a : Word) (n : Nat) (d : Word) :
    (hostWrite s a n d).1.mem = s.mem
    ∨ ∃ r, target a n true = some (.bytes r)
        ∧ (hostWrite s a n d).1.mem = Memory.store s.mem a.toNat (bytesOfWord n d) := by
  obtain e | e | ⟨_, e | e⟩ | ⟨_, e⟩ | ⟨_, r, _, _, e⟩ | ⟨_, r, hr, e⟩ := hostWrite_cases s a n d
  · exact .inl (congrArg State.mem e :)
  · exact .inl (congrArg State.mem e :)
  · exact .inl (congrArg State.mem e :)
  · exact .inl (congrArg State.mem e :)
  · exact .inl (congrArg State.mem e :)
  · exact .inl (by rw [e]; simp [State.csrWrite_frame s r d])
  · exact .inr ⟨r, hr, (congrArg State.mem e :)⟩

/-- What the outside world's step can lead to, one case per kind of input. -/
theorem inputStep_cases (s : State) :
    (s.inputs = [] ∧ inputStep s = s)
    ∨ (∃ a n rest, s.inputs = .read a n :: rest ∧ inputStep s = State.answer (hostRead (s.take rest) a n))
    ∨ (∃ a n d rest, s.inputs = .write a n d :: rest ∧ inputStep s = State.answer (hostWrite (s.take rest) a n d))
    ∨ (∃ rest, s.inputs = .poll :: rest
        ∧ inputStep s = State.answer (hostRead (s.take (if s.busy then s.inputs else rest)) 4 4))
    ∨ (∃ rest, s.inputs = .reset :: rest ∧ inputStep s = (s.take rest).hardReset) := by
  unfold inputStep
  cases h : s.inputs with
  | nil => simp
  | cons x rest => cases x <;> simp

end Sys2Proof.Machine
end

