-- ==== Sys2Proof/Laws/Exec.lean ====
section
/-!
SUPPORT. What the engine and the step can answer, said once per meaning; the provers cite these instead of unfolding.
-/

namespace Sys2Proof.Machine

/-- The engine's turn: the step is the engine's. -/
theorem step_of_turn (s : State) (h : s.engineTurn = true) : step s = engineStep s := by simp [step, h]

/-- Otherwise the step is the outside world's. -/
theorem step_of_not_turn (s : State) (h : s.engineTurn = false) : step s = .next (inputStep s) := by simp [step, h]

/-- The engine's turn comes only while BUSY = 1. -/
theorem busy_of_turn (s : State) (h : s.engineTurn = true) : s.busy = true := by
  simp only [State.engineTurn, Bool.and_eq_true] at h
  exact h.1

/-- A run of k + 1 steps is the first step and a run of k steps. -/
theorem core_run_succ (k : Nat) (s t : State) (h : step s = .next t) :
    Sys2Proof.core.run (k + 1) s = Sys2Proof.core.run k t := by
  simp [Host.Core.run, show Sys2Proof.core.step s = .next t from h]

theorem engineStep_of_decode (s : State) (i : Instr) (h : decode s.pending = .ok i) : engineStep s = exec i s := by
  simp [engineStep, h]

theorem engineStep_of_reject (s : State) (e : Reject) (h : decode s.pending = .error e) :
    engineStep s = execIllegal s := by
  simp [engineStep, h]

/-- GAMMA_BUILD ends in one of three ways. -/
theorem execGammaBuild_cases (s : State) :
    (s.lutValid = true ∧ execGammaBuild s = .next (s.finish .lutLocked))
    ∨ (s.lutValid = false ∧ (gammaLegal s.gammaR && gammaLegal s.gammaG && gammaLegal s.gammaB) = false
        ∧ execGammaBuild s = .next (s.finish .configError))
    ∨ (s.lutValid = false ∧ (gammaLegal s.gammaR && gammaLegal s.gammaG && gammaLegal s.gammaB) = true
        ∧ execGammaBuild s = .next ({ s.storeAt (lutAddr 0 0) s.lutBytes with lutValid := true }.finish .ok)) := by
  unfold execGammaBuild
  cases s.lutValid <;>
    cases gammaLegal s.gammaR && gammaLegal s.gammaG && gammaLegal s.gammaB <;> simp

/-- SAMPLE reports its first failing check, or produces the frame. -/
theorem execSample_cases (s : State) :
    (∃ code, sampleCheck Config.srcBytes s = some code ∧ execSample s = .next (s.finish code))
    ∨ (sampleCheck Config.srcBytes s = none ∧ execSample s = .next (s.sampled.finish .ok)) := by
  unfold execSample sampleWith
  cases h : sampleCheck Config.srcBytes s <;> simp

/-- ENCODE reports a payload that is too large, or writes the packet. -/
theorem execEncode_cases (s : State) :
    (65535 < s.opL ∧ execEncode s = .next (s.finish .payloadTooLarge))
    ∨ (s.opL ≤ 65535 ∧ execEncode s
        = .next ({ (s.storeAt Region.pkt.base s.packet).draw s.opL with pktLen := 10 + s.payloadLen }.finish .ok)) := by
  unfold execEncode
  by_cases h : 65535 < s.opL <;> simp [h]
  omega

@[simp] theorem State.lutBytes_length (s : State) : s.lutBytes.length = 768 := by simp [State.lutBytes]

@[simp] theorem ddpHeader_length (L : Word) : (ddpHeader L).length = 10 := rfl

@[simp] theorem State.packet_length (s : State) : s.packet.length = 10 + s.opL := by simp [State.packet]

/-- P_SRC_BYTES lies in the range R7 allows. -/
theorem Config.srcBytes_bounds : 3 ≤ Config.srcBytes ∧ Config.srcBytes ≤ 2 ^ 24 := by
  have := Config.srcBytesAbove3.isLt
  unfold Config.srcBytes
  omega

/-- When all of SAMPLE's checks pass (R130 to R134). -/
theorem sampleCheck_none_iff (P : Nat) (s : State) :
    sampleCheck P s = none ↔
      (s.opW ≠ 0 ∧ s.opH ≠ 0 ∧ s.opw ≠ 0 ∧ s.oph ≠ 0)
      ∧ (isFinite s.corrR = true ∧ isFinite s.corrG = true ∧ isFinite s.corrB = true)
      ∧ brightnessIllegal s.brightness = false ∧ s.lutValid = true
      ∧ aspectRejected s.opW s.opH s.opw s.oph = false
      ∧ s.opW * s.opH * 3 ≤ P ∧ s.opw * s.oph * 3 ≤ frameBytes := by
  unfold sampleCheck
  split_ifs <;> simp_all <;> first | tauto | omega

end Sys2Proof.Machine
end

