-- ==== Sys2Proof/Laws/Gamma.lean ====
section
/-!
SUPPORT. What the gamma function's search answers: the greatest n that the threshold test reaches (spec/40_gamma.md R114).
-/

namespace Sys2Proof.Machine

theorem gammaReaches_iff (a q i n : Nat) :
    gammaReaches a q i n = true ↔ (2 * n - 1) ^ q * 255 ^ a ≤ i ^ a * 510 ^ q := by
  simp [gammaReaches]

/-- A lower threshold is reached wherever a higher one is. -/
theorem gammaReaches_anti (a q i : Nat) {m n : Nat} (hmn : m ≤ n) (h : gammaReaches a q i n = true) :
    gammaReaches a q i m = true := by
  rw [gammaReaches_iff] at h ⊢
  exact (Nat.mul_le_mul_right _ (Nat.pow_le_pow_left (by omega) q)).trans h

/-- A greater input reaches whatever a smaller one reaches. -/
theorem gammaReaches_mono (a q n : Nat) {i j : Nat} (hij : i ≤ j) (h : gammaReaches a q i n = true) :
    gammaReaches a q j n = true := by
  rw [gammaReaches_iff] at h ⊢
  exact h.trans (Nat.mul_le_mul_right _ (Nat.pow_le_pow_left hij a))

/-- The search stays in its range, answers its start or a number the test holds for, and passes over no such number. -/
theorem greatestBelow_spec (p : Nat → Bool) (hp : ∀ m n, m ≤ n → p n = true → p m = true) (bits lo : Nat) :
    lo ≤ greatestBelow p bits lo ∧ greatestBelow p bits lo < lo + 2 ^ bits
      ∧ (greatestBelow p bits lo = lo ∨ p (greatestBelow p bits lo) = true)
      ∧ ∀ n, greatestBelow p bits lo < n → n < lo + 2 ^ bits → p n = false := by
  induction bits generalizing lo with
  | zero => simp [greatestBelow]; omega
  | succ bits ih =>
    have hpow : 2 ^ (bits + 1) = 2 ^ bits + 2 ^ bits := by omega
    rw [greatestBelow]
    by_cases h : p (lo + 2 ^ bits) = true
    · rw [if_pos h]
      obtain ⟨h1, h2, h3, h4⟩ := ih (lo + 2 ^ bits)
      refine ⟨by omega, by omega, .inr ?_, fun n hn hlt => h4 n hn (by omega)⟩
      rcases h3 with h3 | h3
      · rw [h3]; exact h
      · exact h3
    · rw [if_neg h]
      obtain ⟨h1, h2, h3, h4⟩ := ih lo
      refine ⟨h1, by omega, h3, fun n hn hlt => ?_⟩
      rcases Nat.lt_or_ge n (lo + 2 ^ bits) with h' | h'
      · exact h4 n hn h'
      · exact Bool.eq_false_iff.2 fun hpn => h (hp _ _ h' hpn)

/-- gammaRound is at most 255, is 0 or reached, and no greater number up to 255 is reached. -/
theorem gammaRound_spec (a q i : Nat) :
    gammaRound a q i ≤ 255 ∧ (gammaRound a q i = 0 ∨ gammaReaches a q i (gammaRound a q i) = true)
      ∧ ∀ n, gammaRound a q i < n → n ≤ 255 → gammaReaches a q i n = false := by
  obtain ⟨_, h2, h3, h4⟩ := greatestBelow_spec (gammaReaches a q i) (fun _ _ => gammaReaches_anti a q i) 8 0
  exact ⟨by unfold gammaRound; omega, h3, fun n hn hle => h4 n hn (by omega)⟩

/-- The number that is reached while the next is not is the answer. -/
theorem gammaRound_eq (a q i n : Nat) (hn : n ≤ 255) (h1 : n = 0 ∨ gammaReaches a q i n = true)
    (h2 : n = 255 ∨ gammaReaches a q i (n + 1) = false) : gammaRound a q i = n := by
  obtain ⟨hle, hr, hmax⟩ := gammaRound_spec a q i
  rcases Nat.lt_trichotomy (gammaRound a q i) n with h | h | h
  · have hf := hmax n h hn
    rcases h1 with rfl | h1
    · omega
    · rw [h1] at hf; cases hf
  · exact h
  · have h2' : gammaReaches a q i (n + 1) = false := h2.resolve_left (by omega)
    have ht := gammaReaches_anti a q i (show n + 1 ≤ gammaRound a q i from h) (hr.resolve_left (by omega))
    rw [h2'] at ht; cases ht

end Sys2Proof.Machine
end

