-- ==== Sys2Proof/Laws/GammaFast.lean ====
section
/-!
SUPPORT. A fast evaluator of the threshold test of GammaRef, for exponents whose exact powers have millions of digits:
each power is bounded below and above by a 320-bit number times a power of two, and a comparison of the bounds decides
the exact one. Every answer it gives is proved equal to the model's (`gammaReaches_of_quick`).
-/

namespace Sys2Proof.Machine.GammaFast

/-- The number that a mantissa m and an exponent x stand for. -/
def value (p : Nat × Nat) : Nat := p.1 * 2 ^ p.2

/-- Drop the bits of m below its leading 320, rounding down. -/
def roundDown (m x : Nat) : Nat × Nat := (m >>> (m.log2 - 319), x + (m.log2 - 319))

/-- Drop the bits of m below its leading 320, rounding up. -/
def roundUp (m x : Nat) : Nat × Nat :=
  if m.log2 ≤ 319 then (m, x) else ((m >>> (m.log2 - 319)) + 1, x + (m.log2 - 319))

/-- A bound of b^e for e < 2^bits, by repeated squaring, rounded at each step. -/
def powBound (rnd : Nat → Nat → Nat × Nat) (b : Nat) : Nat → Nat → Nat × Nat
  | 0, _ => (1, 0)
  | bits + 1, e =>
    if e = 0 then (1, 0)
    else
      match powBound rnd b bits (e / 2) with
      | (m, x) => rnd (if e % 2 = 1 then m * m * b else m * m) (2 * x)

/-- The product of two such numbers. -/
def times (l r : Nat × Nat) : Nat × Nat := if l.1 * r.1 = 0 then (0, 0) else (l.1 * r.1, l.2 + r.2)

/-- A sufficient test for value l ≤ value r (slack 0) and value l < value r (slack 1). -/
def surelyLe (slack : Nat) (l r : Nat × Nat) : Bool :=
  decide (l.2 - r.2 ≤ 1024) && decide ((l.1 + slack) <<< (l.2 - r.2) ≤ r.1 <<< min (r.2 - l.2) 1024)

/-- Exponents below 2^160 are bounded; every exponent of a binary32 pattern in lowest terms is. -/
def maxBits : Nat := 160

/-- A bound of b^e. -/
def pow (rnd : Nat → Nat → Nat × Nat) (b e : Nat) : Nat × Nat := powBound rnd b maxBits e

/-- The threshold test decided from bounds, where they decide it. -/
def quick (a q i n : Nat) : Option Bool :=
  if a < 2 ^ maxBits ∧ q < 2 ^ maxBits then
    if surelyLe 0 (times (pow roundUp (2 * n - 1) q) (pow roundUp 255 a)) (times (pow roundDown i a) (pow roundDown 510 q))
    then some true
    else if surelyLe 1 (times (pow roundUp i a) (pow roundUp 510 q)) (times (pow roundDown (2 * n - 1) q) (pow roundDown 255 a))
    then some false
    else none
  else none

theorem value_roundDown (m x : Nat) : value (roundDown m x) ≤ m * 2 ^ x := by
  unfold value roundDown
  rw [Nat.shiftRight_eq_div_pow]
  simp only [pow_add]
  rw [← mul_assoc, mul_right_comm]
  exact Nat.mul_le_mul_right _ (Nat.div_mul_le_self ..)

theorem value_roundUp (m x : Nat) : m * 2 ^ x ≤ value (roundUp m x) := by
  unfold value roundUp
  split
  · exact le_rfl
  · rw [Nat.shiftRight_eq_div_pow]
    simp only [pow_add]
    rw [← mul_assoc, mul_right_comm]
    refine Nat.mul_le_mul_right _ ?_
    have h := Nat.lt_mul_div_succ m (Nat.two_pow_pos (m.log2 - 319))
    rw [mul_comm] at h
    exact h.le

theorem value_times (l r : Nat × Nat) : value (times l r) = value l * value r := by
  unfold value times
  split
  · next h =>
    rcases Nat.mul_eq_zero.1 h with h | h <;> simp [h]
  · simp only [pow_add]; ring

theorem pow_split (b e : Nat) : b ^ e = (if e % 2 = 1 then b ^ (e / 2) * b ^ (e / 2) * b else b ^ (e / 2) * b ^ (e / 2)) := by
  conv_lhs => rw [← Nat.div_add_mod e 2]
  split
  · next h => rw [h, pow_succ, two_mul, pow_add]
  · next h => rw [show e % 2 = 0 by omega, add_zero, two_mul, pow_add]

theorem powBound_down (b bits e : Nat) (he : e < 2 ^ bits) : value (powBound roundDown b bits e) ≤ b ^ e := by
  induction bits generalizing e with
  | zero =>
    have : e = 0 := by simpa using he
    subst this; simp [powBound, value]
  | succ bits ih =>
    rw [powBound]
    split
    · next h => subst h; simp [value]
    · have hi := ih (e / 2) (by omega)
      generalize powBound roundDown b bits (e / 2) = p at hi ⊢
      obtain ⟨m, x⟩ := p
      have hsq : m * m * 2 ^ (2 * x) ≤ b ^ (e / 2) * b ^ (e / 2) := by
        calc m * m * 2 ^ (2 * x) = value (m, x) * value (m, x) := by simp only [value, two_mul, pow_add]; ring
          _ ≤ _ := Nat.mul_le_mul hi hi
      refine (value_roundDown _ _).trans ?_
      rw [pow_split b e]
      split
      · rw [mul_right_comm]; exact Nat.mul_le_mul_right b hsq
      · exact hsq

theorem powBound_up (b bits e : Nat) (he : e < 2 ^ bits) : b ^ e ≤ value (powBound roundUp b bits e) := by
  induction bits generalizing e with
  | zero =>
    have : e = 0 := by simpa using he
    subst this; simp [powBound, value]
  | succ bits ih =>
    rw [powBound]
    split
    · next h => subst h; simp [value]
    · have hi := ih (e / 2) (by omega)
      generalize powBound roundUp b bits (e / 2) = p at hi ⊢
      obtain ⟨m, x⟩ := p
      have hsq : b ^ (e / 2) * b ^ (e / 2) ≤ m * m * 2 ^ (2 * x) := by
        calc _ ≤ value (m, x) * value (m, x) := Nat.mul_le_mul hi hi
          _ = m * m * 2 ^ (2 * x) := by simp only [value, two_mul, pow_add]; ring
      refine le_trans ?_ (value_roundUp _ _)
      rw [pow_split b e]
      split
      · rw [mul_right_comm (m * m)]; exact Nat.mul_le_mul_right b hsq
      · exact hsq

theorem surelyLe_sound (slack : Nat) (l r : Nat × Nat) (h : surelyLe slack l r = true) :
    value l + slack ≤ value r := by
  simp only [surelyLe, Bool.and_eq_true, decide_eq_true_eq, Nat.shiftLeft_eq] at h
  have h := h.2
  unfold value
  rcases Nat.le_total l.2 r.2 with hx | hx
  · have hs : slack ≤ slack * 2 ^ l.2 := Nat.le_mul_of_pos_right _ (Nat.two_pow_pos _)
    rw [Nat.sub_eq_zero_of_le hx, pow_zero, mul_one] at h
    have hmin : 2 ^ min (r.2 - l.2) 1024 ≤ 2 ^ (r.2 - l.2) := Nat.pow_le_pow_right (by omega) (min_le_left ..)
    calc l.1 * 2 ^ l.2 + slack ≤ (l.1 + slack) * 2 ^ l.2 := by rw [add_mul]; omega
      _ ≤ r.1 * 2 ^ (r.2 - l.2) * 2 ^ l.2 := Nat.mul_le_mul_right _ (h.trans (Nat.mul_le_mul_left _ hmin))
      _ = r.1 * 2 ^ r.2 := by rw [mul_assoc, ← pow_add, Nat.sub_add_cancel hx]
  · have hs : slack ≤ slack * 2 ^ l.2 := Nat.le_mul_of_pos_right _ (Nat.two_pow_pos _)
    rw [Nat.sub_eq_zero_of_le hx, Nat.zero_min, pow_zero, mul_one] at h
    calc l.1 * 2 ^ l.2 + slack ≤ (l.1 + slack) * 2 ^ l.2 := by rw [add_mul]; omega
      _ = (l.1 + slack) * 2 ^ (l.2 - r.2) * 2 ^ r.2 := by rw [mul_assoc, ← pow_add, Nat.sub_add_cancel hx]
      _ ≤ r.1 * 2 ^ r.2 := Nat.mul_le_mul_right _ h

/-- Where the bounds decide the threshold test, they decide it rightly. -/
theorem gammaReaches_of_quick (a q i n : Nat) (b : Bool) (h : quick a q i n = some b) : gammaReaches a q i n = b := by
  unfold quick pow at h
  split at h
  · next hlt =>
    split at h
    · next hle =>
      have hv := surelyLe_sound _ _ _ hle
      rw [value_times, value_times] at hv
      cases h
      rw [gammaReaches_iff]
      exact (Nat.mul_le_mul (powBound_up _ _ _ hlt.2) (powBound_up _ _ _ hlt.1)).trans
        (hv.trans (Nat.mul_le_mul (powBound_down _ _ _ hlt.1) (powBound_down _ _ _ hlt.2)))
    · split at h
      · next hle =>
        have hv := surelyLe_sound _ _ _ hle
        rw [value_times, value_times] at hv
        cases h
        rw [Bool.eq_false_iff, Ne, gammaReaches_iff, not_le]
        refine lt_of_lt_of_le (Nat.lt_of_lt_of_le (Nat.lt_succ_of_le ?_) hv)
          (Nat.mul_le_mul (powBound_down _ _ _ hlt.2) (powBound_down _ _ _ hlt.1))
        exact Nat.mul_le_mul (powBound_up _ _ _ hlt.1) (powBound_up _ _ _ hlt.2)
      · cases h
  · cases h

/-- n is the table entry of the pattern b at i, as two fast comparisons show. -/
def entryIs (b : Word) (i n : Nat) : Bool :=
  decide (n ≤ 255) && (n == 0 || quick (gammaNum b) (gammaDen b) i n == some true)
    && (n == 255 || quick (gammaNum b) (gammaDen b) i (n + 1) == some false)

/-- A fast check of one table entry proves it of the model's GammaRef. -/
theorem gammaRef_of_entryIs (b : Word) (i n : Nat) (h : entryIs b i n = true) : gammaRef b i = n := by
  simp only [entryIs, Bool.and_eq_true, Bool.or_eq_true, decide_eq_true_eq, beq_iff_eq] at h
  obtain ⟨⟨hn, h1⟩, h2⟩ := h
  exact gammaRound_eq _ _ _ _ hn (h1.imp_right (gammaReaches_of_quick _ _ _ _ _))
    (h2.imp_right (gammaReaches_of_quick _ _ _ _ _))

end Sys2Proof.Machine.GammaFast
end

