-- ==== Sys2Proof/Laws/Operands.lean ====
section
/-!
SUPPORT. The small lemmas of the operand forms: binary32 values, clamping, and SAMPLE's brightness test.
-/

namespace Sys2Proof.Machine

theorem f32Unit_pos : 0 < f32Unit := Nat.two_pow_pos 149

/-- The unit as a rational power of two. -/
theorem f32Unit_cast : (f32Unit : ℚ) = 2 ^ 149 := Nat.cast_pow 2 149

@[simp] theorem F32.num_finite (n : Int) : (F32.finite n).num = n := rfl

@[simp] theorem F32.belowZero_finite (n : Int) : (F32.finite n).belowZero = decide (n < 0) := rfl

@[simp] theorem F32.aboveOne_finite (n : Int) : (F32.finite n).aboveOne = decide ((f32Unit : Int) < n) := rfl

/-- A pattern decodes to a finite value exactly when its exponent field is not 255. -/
theorem f32_of_isFinite (b : Word) (h : isFinite b = true) :
    f32 b = .finite (if b.getLsbD 31 then -(f32Magnitude b : Int) else f32Magnitude b) := by
  simp [f32, h]

/-- A pattern whose exponent field is 255 is an infinity or no number. -/
theorem f32_of_not_isFinite (b : Word) (h : isFinite b = false) :
    f32 b = if f32Fraction b = 0 then .infinite (b.getLsbD 31) else .nan := by
  simp [f32, h]

/-- A finite brightness is illegal exactly when it is below 0 or above 1. -/
theorem brightnessIllegal_of_finite (b : Word) (n : Int) (h : f32 b = .finite n) :
    brightnessIllegal b = true ↔ n < 0 ∨ (f32Unit : Int) < n := by
  rw [brightnessIllegal, h, F32.belowZero_finite, F32.aboveOne_finite, Bool.or_eq_true, Bool.or_eq_true,
    decide_eq_true_eq, decide_eq_true_eq, beq_iff_eq]
  simp

/-- A brightness that is no finite value is illegal. -/
theorem brightnessIllegal_of_not_isFinite (b : Word) (h : isFinite b = false) : brightnessIllegal b = true := by
  rw [brightnessIllegal, f32_of_not_isFinite b h]
  split
  · cases b.getLsbD 31 <;> rfl
  · rfl

/-- An exponent is legal exactly when it decodes to a positive value. -/
theorem gammaLegal_iff (b : Word) :
    gammaLegal b = true ↔ isFinite b = true ∧ b.getLsbD 31 = false ∧ f32Magnitude b ≠ 0 := by
  simp [gammaLegal, and_assoc]

/-- clampByte as an integer. -/
theorem clampByte_cast (n : Int) : (clampByte n : Int) = min 255 (max 0 n) := by
  rw [clampByte, Int.toNat_of_nonneg (by omega)]

theorem clampByte_le (n : Int) : clampByte n ≤ 255 := by
  unfold clampByte
  omega

theorem stage1_le (v : Nat) (b : Word) : stage1 v b ≤ 255 := clampByte_le _

theorem stage2_le (v : Nat) (b : Word) : stage2 v b ≤ 255 := clampByte_le _

end Sys2Proof.Machine
end

