-- ==== Sys2Proof/Laws/PerInstr.lean ====
section
/-!
SUPPORT. A statement about each command as syntax, one lemma per constructor: its word has MBZ = 0 and a defined opcode,
and decodes to it (spec/30_encoding.md R90 to R92).
-/

namespace Sys2Proof.Laws.CommandWord

/-- The command's word is well formed, has the command's opcode in OP, and decodes to the command. -/
def Statement (i : Instr) : Prop :=
  Word.wellFormed (encode i) = true ∧ Word.op (encode i) = i.opcode ∧ decode (encode i) = .ok i

theorem nop : Statement .nop := by unfold Statement; decide
theorem gammaBuild : Statement .gammaBuild := by unfold Statement; decide
theorem sample : Statement .sample := by unfold Statement; decide
theorem encode : Statement .encode := by unfold Statement; decide
theorem softReset : Statement .softReset := by unfold Statement; decide

end Sys2Proof.Laws.CommandWord
end

