-- ==== Sys2Proof/Tests/Slice0.lean ====
section
/-!
SUPPORT. The model's own tests, and one witness per statement that has hypotheses. Expected results come from
spec/95_test_vectors.md (the row is named beside each test) or from the rule named there; the words are written out from
spec/30_encoding.md R90 and R91.
-/

namespace Sys2Proof.Tests

open Sys2Proof.Machine Sys2Proof.Claims

/-! ## Well-formedness and decoding -/

/-- R90: MBZ is not zero, the opcode is defined (K5): the MBZ check refuses the word. -/
theorem test_wellFormed_refuses_mbz :
    Word.mbzIsZero 0x00000102 = false ∧ Word.opIsDefined 0x00000102 = true ∧ Word.wellFormed 0x00000102 = false := by
  decide

/-- R91: MBZ is zero, the opcode is not defined (K3): the opcode check refuses the word. -/
theorem test_wellFormed_refuses_op :
    Word.mbzIsZero 0x00000005 = true ∧ Word.opIsDefined 0x00000005 = false ∧ Word.wellFormed 0x00000005 = false := by
  decide

/-- R91: the five words, MBZ in bits [31:8] and OP in bits [7:0], bit by bit. -/
theorem test_decode_words :
    decode ((0b000000000000000000000000 : BitVec 24) ++ (0b00000000 : BitVec 8)) = .ok .nop
      ∧ decode ((0b000000000000000000000000 : BitVec 24) ++ (0b00000001 : BitVec 8)) = .ok .gammaBuild
      ∧ decode ((0b000000000000000000000000 : BitVec 24) ++ (0b00000010 : BitVec 8)) = .ok .sample
      ∧ decode ((0b000000000000000000000000 : BitVec 24) ++ (0b00000011 : BitVec 8)) = .ok .encode
      ∧ decode ((0b000000000000000000000000 : BitVec 24) ++ (0b00000100 : BitVec 8)) = .ok .softReset := by
  decide

/-- R94: the illegal words of K3 to K6, each rejected by name. -/
theorem test_decode_illegal :
    decode 0x00000005 = .error (.undefinedOpcode 0x05) ∧ decode 0x000000FF = .error (.undefinedOpcode 0xFF)
      ∧ decode 0x00000102 = .error (.mbzNonZero 1) ∧ decode 0x80000001 = .error (.mbzNonZero 0x800000) := by
  decide

/-- The opcode table's numbering: 32 bits, and the 8 bits of OP alone. -/
theorem test_decodeTableWord :
    decodeTableWord 32 0x00000003 = some .encode ∧ decodeTableWord 8 0x02 = some .sample
      ∧ decodeTableWord 32 0x00000102 = none := by
  decide

/-! ## Small states -/

/-- The block after a hardware reset, with MIN_DELAY_MS = 20 written. -/
def base : State := { State.reset with minDelayMs := 20 }

/-- The bytes of the identity LUT (g = 1.0): lut[c][i] = i. -/
def identityLut : List Byte := (List.range 768).map fun k => BitVec.ofNat 8 k

/-- One source pixel (10, 20, 30), one matrix pixel, brightness 1.0, the identity LUT built. -/
def pixel : State :=
  { base with
    srcWidth := 1, srcHeight := 1, matWidth := 1, matHeight := 1, brightness := 0x3F800000, lutValid := true
    mem := Memory.store (Memory.store [] (lutAddr 0 0) identityLut) Region.src.base [10, 20, 30] }

/-- W×H to w×h with LUT_VALID as given and brightness 1.0. -/
def sized (W H w h : BitVec 16) (lutValid : Bool) : State :=
  { base with srcWidth := W, srcHeight := H, matWidth := w, matHeight := h, brightness := 0x3F800000, lutValid := lutValid }

/-- A command is pending and the engine's turn comes after one input. -/
def waiting (word : Word) (i : Input) : State :=
  { base with busy := true, pending := word, engineWait := 1, inputs := [i] }

/-- The state that an outcome goes on to; the state given where it does not go on. -/
def nextOr (s : State) : Host.Outcome State Fault Refusal → State
  | .next t => t
  | .fault _ => s
  | .refused _ => s

/-! ## The commands -/

/-- K1: NOP clears a RESULT of 4. -/
theorem test_nop_clears_result :
    (nextOr base (step ({ base with result := .payloadTooLarge }.withFetchWord 32 0))).statusWord = 0 := by
  decide

/-- K5: an illegal word reports 7. -/
theorem test_illegal_word : (nextOr base (step (base.withFetchWord 32 0x00000102))).statusWord = 0x00000070 := by
  decide

/-- K2: SOFT_RESET clears STATUS and MAT_WIDTH and keeps a FRAME byte. -/
theorem test_softReset :
    let s := { base with lutValid := true, matWidth := 16, cmdOvr := true, mem := [(0x00010000, 7)] }
    let t := nextOr base (exec .softReset s)
    t.statusWord = 0 ∧ t.matWidth = 0 ∧ t.brightness = 0x3F000000 ∧ Memory.get? t.mem 0x00010000 = some 7 := by
  decide

/-- G10, through a step: each channel follows its own exponent, and STATUS is LUT_VALID and OK. -/
theorem test_gammaBuild_channels :
    let s := { base with gammaR := 0x3F800000, gammaG := 0x40000000, gammaB := 0x3F000000 }
    let t := nextOr base (step (s.withFetchWord 32 1))
    t.statusWord = 0x00000002 ∧ Memory.get? t.mem (lutAddr 0 100) = some 100
      ∧ Memory.get? t.mem (lutAddr 1 100) = some 39 ∧ Memory.get? t.mem (lutAddr 2 100) = some 160 := by
  decide +kernel

/-- G2 to G7: LUT_LOCKED comes before the exponents; a zero, a negative, an infinite and a NaN exponent are refused. -/
theorem test_gammaBuild_refuses :
    (nextOr base (exec .gammaBuild { base with lutValid := true, gammaR := 0 })).result = .lutLocked
      ∧ (nextOr base (exec .gammaBuild { base with gammaR := 0x00000000 })).result = .configError
      ∧ (nextOr base (exec .gammaBuild { base with gammaG := 0x80000000 })).result = .configError
      ∧ (nextOr base (exec .gammaBuild { base with gammaB := 0xBF800000 })).result = .configError
      ∧ (nextOr base (exec .gammaBuild { base with gammaR := 0x7F800000 })).result = .configError
      ∧ (nextOr base (exec .gammaBuild { base with gammaR := 0x7FC00000 })).result = .configError := by
  decide

/-- A3, A5, A18, A19, A20, A22: the checks of SAMPLE and their order, for P_SRC_BYTES = 2^20. -/
theorem test_sample_checks :
    sampleCheck (2 ^ 20) (sized 51 50 16 16 true) = none
      ∧ sampleCheck (2 ^ 20) (sized 33 32 16 16 true) = some .unsupportedAspect
      ∧ sampleCheck (2 ^ 20) (sized 32 20 16 16 false) = some .lutNotReady
      ∧ sampleCheck (2 ^ 20) { sized 32 20 16 16 true with brightness := 0x40000000 } = some .configError
      ∧ sampleCheck (2 ^ 20) (sized 32 32 148 148 true) = some .allocError
      ∧ sampleCheck (2 ^ 20) (sized 1024 1024 16 16 true) = some .allocError := by
  decide

/-- P2: 4×4 to 2×2 with a correction per channel, brightness 0.5 and gamma 2.0 (lut[i] = (i² + 127) div 255, R115). -/
theorem test_sample_frame :
    let lut : List Byte := (List.range 768).map fun k => BitVec.ofNat 8 (((k % 256) ^ 2 + 127) / 255)
    let src : List Byte := (List.range 48).map fun n =>
      BitVec.ofNat 8 (if n % 3 = 0 then 16 * (n / 3) + 15 else if n % 3 = 1 then 200 - 10 * (n / 3) else 255 - 5 * (n / 3))
    let s := { sized 4 4 2 2 true with
      corrG := 0x3F400000, corrB := 0x3FC00000, brightness := 0x3F000000
      mem := Memory.cells (lutAddr 0 0) lut ++ Memory.cells Region.src.base src }
    let t := sampleWith (2 ^ 20) s
    t.result = .ok ∧ t.frameDelayMs = 20 ∧ t.payloadLen = 12
      ∧ (List.range 12).map (fun k => Memory.get? t.mem (Region.frame.base + k))
        = ([0x09, 0x0C, 0x3F, 0x10, 0x09, 0x3F, 0x30, 0x03, 0x3F, 0x3F, 0x01, 0x3F] : List Byte).map some := by
  decide +kernel

/-- E5: the two length bytes are big-endian, and PKT_LEN is 266. -/
theorem test_encode_header :
    let t := nextOr base (exec .encode { base with payloadLen := 256, mem := Memory.cells Region.frame.base [0x11, 0x22] })
    t.result = .ok ∧ t.pktLen = 266
      ∧ (List.range 12).map (fun k => Memory.get? t.mem (Region.pkt.base + k))
        = ([0x41, 0x00, 0x03, 0x00, 0x00, 0x00, 0x00, 0x00, 0x01, 0x00, 0x11, 0x22] : List Byte).map some := by
  decide +kernel

/-- E7, E9: a length above 65535 is rejected. -/
theorem test_encode_rejects :
    (nextOr base (exec .encode { base with payloadLen := 65536 })).statusWord = 0x00000040
      ∧ (nextOr base (exec .encode { base with payloadLen := 0xFFFFFFFF })).pktLen = 0 := by
  decide

/-! ## The operations -/

/-- The colour pipeline rows whose product is not whole, is clamped or is negative (table 2.5). -/
theorem test_stages :
    stage1 10 0x3F666666 = 8 ∧ stage1 255 0x3F666666 = 229 ∧ stage1 255 0x3FC00000 = 255 ∧ stage1 100 0xBF800000 = 0
      ∧ stage1 128 0x3F8CCCCD = 140 ∧ stage2 140 0x3F666666 = 125 ∧ stage1 0 0x7F7FFFFF = 0 ∧ stage2 255 0x80000000 = 0 := by
  decide +kernel

/-- The sampler (table 2.4): 20 to 16, and 5 to 2. -/
theorem test_samplePos :
    (List.range 16).map (samplePos 20 16) = [0, 1, 3, 4, 5, 6, 8, 9, 10, 11, 13, 14, 15, 16, 18, 19]
      ∧ (List.range 2).map (samplePos 5 2) = [1, 3] := by
  decide

/-- The delay (table 2.6): the floor, a delay below the floor that is kept, and the saturation. -/
theorem test_resolveDelay :
    resolveDelay (0xFFFFFFFD : Word).toInt 20 = 20 ∧ resolveDelay (1 : Word).toInt 20 = 10
      ∧ resolveDelay (0x19999999 : Word).toInt 20 = 0xFFFFFFFA ∧ resolveDelay (0x1999999A : Word).toInt 20 = 0xFFFFFFFF := by
  decide

/-- Table 2.2, exponent 2.2000000476837158203125 at 128: 56. Its exact powers have millions of digits. -/
theorem test_gammaRef_2_2 : gammaRef 0x400CCCCD 128 = 56 := GammaFast.gammaRef_of_entryIs _ _ _ (by decide +kernel)

/-- G8, the smallest subnormal: 0 at 0 and 255 at 1. -/
theorem test_gammaRef_subnormal : gammaRef 0x00000001 1 = 255 :=
  GammaFast.gammaRef_of_entryIs _ _ _ (by decide +kernel)

/-- T3 to T6, T9, T10, T13: the transactions that get ERR, and CMD, which reads 0. -/
theorem test_port_legality :
    (hostRead base 0x04 2).2 = ⟨.err, some 0⟩ ∧ (hostRead base 0x06 4).2 = ⟨.err, some 0⟩
      ∧ (hostRead base 0x54 4).2 = ⟨.err, some 0⟩ ∧ (hostRead base 0x08 4).2 = ⟨.ok, some 0⟩
      ∧ (hostWrite base 0x1000 1 5).2 = ⟨.err, none⟩ ∧ (hostWrite base 0x20000 4 0).2 = ⟨.err, none⟩
      ∧ (hostWrite base 0x1000002 4 0).2 = ⟨.err, none⟩ := by
  decide

/-- T24: the byte after SRC is not mapped, whatever P_SRC_BYTES is. -/
theorem test_port_above_src (d : Word) :
    (hostWrite base (BitVec.ofNat 32 (0x01000000 + Config.srcBytes)) 1 d).2.resp = .err := by
  have hb := Config.srcBytes_bounds
  norm_num at hb
  have hf : Region.find (0x01000000 + Config.srcBytes) 1 = none := by
    rw [Region.find, List.find?_eq_none]
    intro r _
    cases r <;> simp [Region.contains, Region.base, Region.size, frameBytes, pktBytes] <;> omega
  have ha : (BitVec.ofNat 32 (0x01000000 + Config.srcBytes)).toNat = 0x01000000 + Config.srcBytes := by
    rw [BitVec.toNat_ofNat, Nat.mod_eq_of_lt (by omega)]
  have e : target (BitVec.ofNat 32 (0x01000000 + Config.srcBytes)) 1 true = none := by
    rw [target, ha, hf]
    split <;> rfl
  rw [hostWrite, e]

/-- T7, T8: ID ignores a write; SRC_WIDTH keeps its defined bits. -/
theorem test_port_registers :
    ((hostWrite base 0x00 4 0x12345678).1.csrRead .id) = 0x44445001
      ∧ ((hostWrite base 0x0C 4 0xABCD0010).1.csrRead .srcWidth) = 0x00000010 := by
  decide

/-- T14 to T16: FRAME bytes are little-endian. -/
theorem test_port_bytes :
    let t := (hostWrite base 0x10000 4 0x44332211).1
    Memory.get? t.mem 0x10000 = some 0x11 ∧ (hostRead t 0x10001 1).2 = ⟨.ok, some 0x22⟩
      ∧ (hostRead t 0x10000 2).2 = ⟨.ok, some 0x00002211⟩ := by
  decide

/-- T11: a read that crosses the end of FRAME gets ERR. -/
theorem test_port_end_of_frame : (hostRead base 0x1FFFC 4).2 = ⟨.err, some 0⟩ := by
  have e : target 0x1FFFC 4 false = none := by
    unfold target Region.find
    simp [Region.all, Region.contains, Region.base, Region.size, frameBytes, pktBytes]
  rw [hostRead, e]

/-- T17, T18: only bits 8 and 9 of STATUS are cleared by writing 1. -/
theorem test_port_sticky :
    (hostWrite { base with cmdOvr := true, wrBusy := true, lutValid := true } 0x04 4 0x00000300).1.statusWord = 2
      ∧ (hostWrite { base with lutValid := true, result := .illegalCmd } 0x04 4 0xFFFFFFFF).1.statusWord = 0x72 := by
  decide

/-- T19, T20: while BUSY = 1 a CMD write sets CMD_OVR and a PAYLOAD_LEN write sets WR_BUSY; both are dropped. -/
theorem test_port_busy :
    let s := { base with busy := true, pending := 3 }
    (hostWrite s 0x08 4 2).1 = { s with cmdOvr := true } ∧ (hostWrite s 0x44 4 7).1 = { s with wrBusy := true } := by
  decide

/-- T23: while ENCODE is pending, FRAME reads the stored bytes. -/
theorem test_port_read_while_encode :
    (hostRead { base with busy := true, pending := 3, mem := Memory.cells 0x10000 [1, 2, 3, 4] } 0x10000 4).2
      = ⟨.ok, some 0x04030201⟩ := by
  decide

/-- R40: with the free wait over, the next step performs the command; before it, the input comes first. -/
theorem test_step_order :
    (nextOr base (step (waiting 5 (.write 0x44 4 7)))).wrBusy = true
      ∧ (nextOr base (step (waiting 5 (.write 0x44 4 7)))).busy = true
      ∧ (nextOr base (step { waiting 5 (.write 0x44 4 7) with engineWait := 0 })).result = .illegalCmd := by
  decide

/-- P1's BYTES statement: 12 bytes as three little-endian words. -/
theorem test_bytes_statement :
    (Stmt.bytes .src 0 [10, 20, 30, 40, 50, 60, 70, 80, 90, 255, 128, 0]).inputs
      = [.write 0x01000000 4 0x281E140A, .write 0x01000004 4 0x50463C32, .write 0x01000008 4 0x0080FF5A] := by
  decide

/-- P5: the frame of the tick and the packet it gives. -/
theorem test_playback_tick :
    ((Playback.start [⟨[1, 2, 3], 16⟩] 2).tick { base with lutValid := true } true).packet
      = some [0x41, 0x00, 0x03, 0x00, 0x00, 0x00, 0x00, 0x00, 0x00, 0x03, 0x01, 0x02, 0x03] := by
  decide +kernel


/-! ## Witnesses: states and operands that meet the hypotheses of the statements -/

theorem test_value32_one : value32 0x3F800000 = 1 := by simp [value32]

theorem test_value32_half : value32 0x3F000000 = 1 / 2 := by simp [value32]

theorem test_value32_minusZero : value32 0x80000000 = 0 := by simp [value32]

theorem test_finite_one : Finite32 0x3F800000 := by unfold Finite32; decide

theorem test_gammaGood_one : GammaGood 0x3F800000 := ⟨test_finite_one, by rw [test_value32_one]; norm_num⟩

/-- Sizes other than 0 with the reset corrections and brightness 1.0 pass the configuration checks. -/
theorem test_sized_configGood (W H w h : BitVec 16) (v : Bool) (hW : W ≠ 0) (hH : H ≠ 0) (hw : w ≠ 0) (hh : h ≠ 0) :
    ¬SampleConfigBad (sized W H w h v) := by
  unfold SampleConfigBad
  simp only [sized, base, State.reset, hW, hH, hw, hh, test_finite_one, test_value32_one]
  norm_num

theorem test_pixel_accepts : SampleAccepts pixel := by
  have hb := Config.srcBytes_bounds
  refine ⟨?_, rfl, ?_, ?_⟩
  · unfold SampleConfigBad
    have h1 := test_finite_one
    have h2 := test_value32_one
    simp only [BitVec.ofNat_eq_ofNat] at h1 h2
    simp [pixel, base, State.reset, h1, h2]
  · norm_num [AspectBad, pixel]
  · simp [AllocBad, pixel]; omega

theorem test_pixel_holds :
    (∀ c : Fin 3, Holds pixel (Region.src.base + c.val) (BitVec.ofNat 8 (10 * (c.val + 1))))
      ∧ ∀ (c : Fin 3) (i : Nat), i < 256 → Holds pixel (lutAddr c i) (BitVec.ofNat 8 i) := by
  refine ⟨fun c => ?_, fun c i hi => ?_⟩
  · unfold Holds pixel
    rw [Memory.get?_store_inside _ _ _ _ c.isLt]
    fin_cases c <;> rfl
  · unfold Holds pixel
    rw [Memory.get?_store_outside _ _ _ _ (.inl (by simp [lutAddr, Region.base]; omega)),
      show lutAddr c i = lutAddr 0 0 + (256 * c.val + i) by simp [lutAddr, add_assoc],
      Memory.get?_store_inside _ _ _ _ (by simp [identityLut]; omega)]
    simp only [identityLut, List.getElem_map, List.getElem_range]
    congr 1
    apply BitVec.eq_of_toNat_eq
    simp

theorem witness_DecodeAcceptsOnlyCommandWords : decode 0x00000004 = .ok .softReset := by decide

theorem witness_DecodeRejectsIllegalWords :
    (∃ e, decode 0x00000005 = .error e) ∧ ∃ e, decode 0x00000100 = .error e :=
  ⟨⟨_, rfl⟩, ⟨_, rfl⟩⟩

theorem witness_StepPerformsPendingCommand :
    (∃ s : State, s.engineTurn = true ∧ decode s.pending = .ok .encode)
      ∧ decodeTableWord 32 4 = some .softReset ∧ decodeTableWord 8 1 = some .gammaBuild :=
  ⟨⟨base.withFetchWord 32 3, by decide⟩, by decide⟩

theorem witness_StepPerformsIllegalWord :
    (base.withFetchWord 32 5).engineTurn = true ∧ ∀ i, (base.withFetchWord 32 5).pending ≠ encode i :=
  ⟨by decide, fun i => by cases i <;> decide⟩

theorem witness_StepTakesOldestInput :
    base.engineTurn = false ∧ base.inputs = []
      ∧ (waiting 5 (.read 0 4)).engineTurn = false ∧ (waiting 5 (.read 0 4)).inputs = .read 0 4 :: []
      ∧ (waiting 5 (.write 8 4 2)).engineTurn = false ∧ (waiting 5 (.write 8 4 2)).inputs = .write 8 4 2 :: []
      ∧ (waiting 5 .reset).engineTurn = false ∧ (waiting 5 .reset).inputs = .reset :: []
      ∧ (waiting 5 .poll).engineTurn = false ∧ (waiting 5 .poll).inputs = .poll :: [] := by
  decide

theorem witness_CommandsNeverTrap :
    (∃ t, exec .encode { base with payloadLen := 65536 } = .next t ∧ t.result ≠ .ok)
      ∧ ∃ t, engineStep (base.withFetchWord 32 5) = .next t :=
  ⟨⟨_, rfl, by decide⟩, _, rfl⟩

theorem test_pixel_inv : pixel.Inv := by
  have hb := Config.srcBytes_bounds
  refine ⟨Memory.wf_store _ _ _ (Memory.wf_store _ _ _ rfl), fun c hc => ?_, fun _ c i hi => ?_⟩
  · obtain h | h := Memory.mem_store _ _ _ _ hc
    · obtain h | h := Memory.mem_store _ _ _ _ h
      · cases h
      · simp [identityLut, isStorage, Region.all, Region.holdsBytes, Region.contains, Region.base, Region.size, lutAddr]
          at h ⊢
        omega
    · simp [isStorage, Region.all, Region.holdsBytes, Region.contains, Region.base, Region.size] at h ⊢
      omega
  · rw [test_pixel_holds.2 c i hi]
    rfl

theorem witness_StepKeepsInv : pixel.Inv ∧ ∃ t, step pixel = .next t := ⟨test_pixel_inv, _, rfl⟩

theorem witness_StepKeepsPacketSound :
    ∃ s t : State, s.pktLen ≠ 0 ∧ PacketSound s ∧ step s = .next t := by
  refine ⟨{ base with pktLen := 10, mem := Memory.cells Region.pkt.base (header 0) }, _, by decide, fun _ => ?_, rfl⟩
  refine ⟨0, by decide, rfl, fun k h => ?_, fun k h => ⟨(header 0)[k]'h, ?_⟩⟩ <;>
    (unfold Holds; rw [Memory.get?_cells]; simp [header])

theorem witness_LutLifecycle :
    (∃ t, exec .gammaBuild base = .next t ∧ t.result = .ok)
      ∧ (∃ t, step (base.withFetchWord 32 1) = .next t ∧ (base.withFetchWord 32 1).lutValid = false ∧ t.lutValid = true)
      ∧ pixel.lutValid = true ∧ (∃ t, step pixel = .next t ∧ t.lutValid = true) := by
  refine ⟨⟨_, rfl, rfl⟩, ⟨_, rfl, rfl, rfl⟩, rfl, _, rfl, rfl⟩

theorem witness_LutValidFallsOnlyByReset :
    (∃ t, step (pixel.withFetchWord 32 4) = .next t ∧ (pixel.withFetchWord 32 4).lutValid = true ∧ t.lutValid = false)
      ∧ ∃ t, step { pixel with inputs := [.reset] } = .next t ∧ t.lutValid = false :=
  ⟨⟨_, rfl, rfl, rfl⟩, _, rfl, rfl⟩

theorem witness_InputsFrozenWhileBusy :
    (waiting 5 (.write 0x44 4 7)).busy = true ∧ (waiting 5 (.write 0x44 4 7)).engineTurn = false
      ∧ ¬ResetNext (waiting 5 (.write 0x44 4 7)) ∧ ∃ t, step (waiting 5 (.write 0x44 4 7)) = .next t :=
  ⟨rfl, rfl, fun ⟨_, h⟩ => by simp [waiting] at h, _, rfl⟩

theorem witness_ResultChangesOnlyAtCompletion :
    (∃ t, step (base.withFetchWord 32 5) = .next t ∧ t.result ≠ (base.withFetchWord 32 5).result)
      ∧ ∃ t, step { base with result := .lutLocked, inputs := [.reset] } = .next t ∧ t.result ≠ .lutLocked :=
  ⟨⟨_, rfl, by decide⟩, _, rfl, by decide⟩

theorem witness_BusyRisesOnlyByCmdWrite :
    base.busy = false ∧ ∃ t, step { base with inputs := [.write 0x08 4 2] } = .next t ∧ t.busy = true :=
  ⟨rfl, _, rfl, rfl⟩

theorem witness_BusyFallsWithinBound : (waiting 5 .poll).busy = true ∧ (waiting 5 .reset).busy = true := by decide

theorem witness_PendingCommandIsPerformed :
    (waiting 5 .poll).busy = true ∧ Input.reset ∉ (waiting 5 .poll).inputs := by
  decide

theorem witness_CommandsWriteOnlyTheirRegion :
    ∃ t, exec .encode base = .next t ∧ ∀ r, writesRegion .encode r = true → r.contains 0x00010000 1 = false :=
  ⟨_, rfl, fun r h => by cases r <;> simp_all [writesRegion, Region.contains, Region.base]⟩

/-- One legal transaction per kind of region, at the ends of the regions. -/
theorem test_legal :
    Legal 0x50 4 false ∧ Legal 0x04 4 true ∧ Legal 0x08 4 true ∧ Legal 0x10FF 1 false ∧ Legal 0x12FC 4 false
      ∧ Legal 0x1FFFE 1 true ∧ Legal 0x30008 1 false ∧ Legal 0x1000000 1 true := by
  have hb := Config.srcBytes_bounds
  refine ⟨⟨by decide, by decide, .csr, ?_⟩, ⟨by decide, by decide, .csr, ?_⟩, ⟨by decide, by decide, .csr, ?_⟩,
    ⟨by decide, by decide, .lutR, ?_⟩, ⟨by decide, by decide, .lutB, ?_⟩, ⟨by decide, by decide, .frame, ?_⟩,
    ⟨by decide, by decide, .pkt, ?_⟩, ⟨by decide, by decide, .src, ?_⟩⟩ <;>
    (simp [Region.base, Region.size, frameBytes, pktBytes]; try omega)

theorem witness_IllegalTransactionsGetErr :
    Legal 0x50 4 false ∧ ¬Legal 0x04 2 false ∧ Legal 0x1FFFE 1 true ∧ ¬Legal 0x06 4 true := by
  refine ⟨test_legal.1, fun h => ?_, test_legal.2.2.2.2.2.1, fun h => absurd h.2.1 (by decide)⟩
  obtain ⟨_, _, r, h1, h2, h3, _⟩ := h
  cases r
  · exact absurd (h3 rfl).1 (by decide)
  all_goals simp [Region.base] at h1

theorem witness_WritesWhileBusy :
    (waiting 5 .poll).busy = true ∧ Legal 0x04 4 true ∧ Legal 0x08 4 true ∧ Legal 0x1FFFE 1 true :=
  ⟨rfl, test_legal.2.1, test_legal.2.2.1, test_legal.2.2.2.2.2.1⟩

theorem witness_CmdWriteStartsCommand : base.busy = false ∧ (waiting 5 .poll).busy = true := by decide

theorem witness_RegisterWriteReadsBack :
    base.busy = false ∧ rwMask .matHeight = some 0x0000FFFF ∧ rwMask .payloadLen = some 0xFFFFFFFF
      ∧ rwMask .pktLen = none ∧ Csr.pktLen ≠ .status ∧ Csr.pktLen ≠ .cmd := by
  decide

theorem witness_BufferWriteStoresBytes :
    base.busy = false ∧ Legal 0x1FFFE 1 true ∧ 256 ≤ (0x1FFFE : Word).toNat ∧ Legal 0x1000000 1 true :=
  ⟨rfl, test_legal.2.2.2.2.2.1, by decide, test_legal.2.2.2.2.2.2.2⟩

theorem witness_BufferReadAfterWrite :
    base.busy = false ∧ Legal 0x1FFFE 1 true ∧ 256 ≤ (0x1FFFE : Word).toNat :=
  ⟨rfl, test_legal.2.2.2.2.2.1, by decide⟩

theorem witness_BufferReadSumsBytes :
    (Legal 0x12FC 4 false ∧ Region.lutB ≠ .csr ∧ Region.lutB.contains (0x12FC : Word).toNat 4 = true)
      ∧ (Legal 0x30008 1 false ∧ Region.pkt ≠ .csr ∧ Region.pkt.contains (0x30008 : Word).toNat 1 = true)
      ∧ (waiting 1 .poll).busy = true ∧ (waiting 1 .poll).pending.extractLsb' 8 24 = 0
      ∧ (waiting 1 .poll).pending.extractLsb' 0 8 = 1 :=
  ⟨⟨test_legal.2.2.2.2.1, by decide, by decide⟩, ⟨test_legal.2.2.2.2.2.2.1, by decide, by decide⟩, by decide⟩

theorem witness_RegionsDisjoint : Region.lutR.contains 0x10FF 1 = true ∧ Region.lutG.contains 0x1100 1 = true := by
  decide

theorem witness_BytesStatementLoadsBuffer :
    ∃ s : State, s.busy = false ∧ 65530 + [1, 2, 3, 4, 5].length ≤ Region.frame.size
      ∧ s.inputs = (Stmt.bytes .frame 65530 [1, 2, 3, 4, 5]).inputs :=
  ⟨{ base with inputs := (Stmt.bytes .frame 65530 [1, 2, 3, 4, 5]).inputs }, rfl, by decide, rfl⟩

theorem witness_HardwareReset : (waiting 2 .reset).engineTurn = false ∧ (waiting 2 .reset).inputs = .reset :: [] := by
  decide

theorem witness_Binary32DecodesExactly :
    Finite32 0x7F7FFFFF ∧ (¬Finite32 0xFF800000 ∧ (0xFF800000 : Word).extractLsb' 0 23 = 0)
      ∧ ¬Finite32 0x7F800001 ∧ (0x7F800001 : Word).extractLsb' 0 23 ≠ 0 := by
  unfold Finite32
  decide

theorem witness_StagesAreExactProducts :
    255 ≤ 255 ∧ Finite32 0x3F800000 ∧ 0 ≤ value32 0x3F800000 ∧ value32 0x3F800000 ≤ 1 := by
  rw [test_value32_one]
  exact ⟨le_rfl, test_finite_one, by norm_num, le_rfl⟩

theorem witness_GammaBuildConfigError :
    (∃ s : State, s.lutValid = false ∧ ∃ c, value32 (gammaReg s c) ≤ 0)
      ∧ ∃ s : State, s.lutValid = false ∧ ∃ c, ¬Finite32 (gammaReg s c) := by
  refine ⟨⟨{ base with gammaG := 0x80000000 }, rfl, 1, ?_⟩, ⟨{ base with gammaB := 0x7F800000 }, rfl, 2, ?_⟩⟩
  · show value32 0x80000000 ≤ 0
    rw [test_value32_minusZero]
  · show ¬Finite32 0x7F800000
    unfold Finite32
    decide

theorem witness_GammaBuildWritesLut : base.lutValid = false ∧ ∀ c, GammaGood (gammaReg base c) :=
  ⟨rfl, fun c => by fin_cases c <;> exact test_gammaGood_one⟩

theorem witness_GammaRefIsRoundedRealPower : GammaGood 0x3F800000 ∧ 0 ≤ 255 ∧ 255 ≤ 255 := ⟨test_gammaGood_one, by decide⟩

theorem witness_GammaRefLaws : GammaGood 0x3F800000 ∧ 0 ≤ 255 ∧ 255 ≤ 255 := ⟨test_gammaGood_one, by decide⟩

theorem witness_GammaRefClosedForms : 0 ≤ 255 ∧ 255 ≤ 255 := by decide

theorem witness_SampleReportsFirstFailingCheck :
    SampleConfigBad base
      ∧ (¬SampleConfigBad (sized 1 1 1 1 false) ∧ (sized 1 1 1 1 false).lutValid = false)
      ∧ (¬SampleConfigBad (sized 33 32 16 16 true) ∧ AspectBad (sized 33 32 16 16 true))
      ∧ (¬SampleConfigBad (sized 148 148 148 148 true) ∧ ¬AspectBad (sized 148 148 148 148 true)
        ∧ AllocBad (sized 148 148 148 148 true))
      ∧ SampleAccepts pixel := by
  refine ⟨.inl rfl, ⟨?_, rfl⟩, ⟨?_, ?_⟩, ⟨?_, ?_, ?_⟩, test_pixel_accepts⟩
  · exact test_sized_configGood _ _ _ _ _ (by decide) (by decide) (by decide) (by decide)
  · exact test_sized_configGood _ _ _ _ _ (by decide) (by decide) (by decide) (by decide)
  · simp [AspectBad, sized]; norm_num [abs_of_pos]
  · exact test_sized_configGood _ _ _ _ _ (by decide) (by decide) (by decide) (by decide)
  · norm_num [AspectBad, sized]
  · simp [AllocBad, sized]

theorem witness_AspectGateIsExactRatioTest :
    0 < 50 ∧ 0 < 16 ∧ aspectRejected 51 50 16 16 = false ∧ aspectRejected 52 50 16 16 = true := by decide

theorem witness_SampleProducesFrame :
    SampleAccepts pixel ∧ 0 < pixel.matWidth.toNat ∧ 0 < pixel.matHeight.toNat
      ∧ (∀ c : Fin 3, Holds pixel (Region.src.base + c.val) (BitVec.ofNat 8 (10 * (c.val + 1))))
      ∧ ∀ (c : Fin 3) (i : Nat), i < 256 → Holds pixel (lutAddr c i) (BitVec.ofNat 8 i) :=
  ⟨test_pixel_accepts, by decide, by decide, test_pixel_holds⟩

theorem witness_SampleResolvesDelayAndLength : SampleAccepts pixel := test_pixel_accepts

theorem witness_SamplePositionHoldsCellCentre : 0 < 48 ∧ 15 < 16 ∧ 16 = 16 ∧ 48 = 3 * 16 := by decide

/-- Two states that differ in the red byte of the source and agree in channel 1. -/
theorem witness_ChannelsDoNotMix :
    ∃ s' t t' : State, s' ≠ pixel ∧ SampleAccepts pixel ∧ SampleAccepts s' ∧ corrReg s' 1 = corrReg pixel 1
      ∧ s'.brightness = pixel.brightness
      ∧ (∀ p, p < pixel.srcWidth.toNat * pixel.srcHeight.toNat → ∃ b,
        Holds pixel (Region.src.base + p * 3 + 1) b ∧ Holds s' (Region.src.base + p * 3 + 1) b)
      ∧ (∀ i, i < 256 → ∃ b, Holds pixel (lutAddr 1 i) b ∧ Holds s' (lutAddr 1 i) b)
      ∧ exec .sample pixel = .next t ∧ exec .sample s' = .next t' := by
  refine ⟨{ pixel with corrR := 0x3F000000 }, _, _, ?_, test_pixel_accepts, ?_, rfl, rfl, ?_, ?_, rfl, rfl⟩
  · intro h
    exact absurd (congrArg State.corrR h) (by decide)
  · obtain ⟨h1, h2, h3, h4⟩ := test_pixel_accepts
    refine ⟨fun hb => h1 ?_, h2, h3, h4⟩
    have hf : Finite32 0x3F000000 := by unfold Finite32; decide
    simp only [SampleConfigBad, hf, not_true, false_or] at hb ⊢
    simpa [pixel, base, State.reset, test_finite_one] using hb
  · intro p hp
    have : p = 0 := by simpa [pixel] using hp
    subst this
    exact ⟨_, test_pixel_holds.1 1, test_pixel_holds.1 1⟩
  · exact fun i hi => ⟨_, test_pixel_holds.2 1 i hi, test_pixel_holds.2 1 i hi⟩

theorem witness_ColourPipelineIdentity :
    SampleAccepts pixel ∧ pixel.brightness = 0x3F800000 ∧ (∀ c, corrReg pixel c = 0x3F800000)
      ∧ (∀ (c : Fin 3) (i : Nat), i < 256 → Holds pixel (lutAddr c i) (BitVec.ofNat 8 i))
      ∧ (∃ t, exec .sample pixel = .next t) ∧ 0 < pixel.matWidth.toNat ∧ 0 < pixel.matHeight.toNat
      ∧ ∀ c : Fin 3, Holds pixel (Region.src.base + c.val) (BitVec.ofNat 8 (10 * (c.val + 1))) :=
  ⟨test_pixel_accepts, rfl, fun c => by fin_cases c <;> rfl, test_pixel_holds.2, ⟨_, rfl⟩, by decide, by decide,
    test_pixel_holds.1⟩

theorem witness_EncodeRejectsLongPayload :
    65535 < ({ base with payloadLen := 65536 } : State).payloadLen.toNat
      ∧ ({ base with payloadLen := 65535 } : State).payloadLen.toNat ≤ 65535 := by
  decide

theorem witness_EncodeWritesPacket :
    ({ base with payloadLen := 65535 } : State).payloadLen.toNat ≤ 65535
      ∧ (0 : Nat) < ({ base with payloadLen := 65535 } : State).payloadLen.toNat
      ∧ Holds { base with payloadLen := 65535, mem := [(0x00010000, 7)] } (Region.frame.base + 0) 7 :=
  ⟨by decide, by decide, rfl⟩

theorem witness_SampledFrameIsEncodable : SampleAccepts pixel ∧ ∃ t, exec .sample pixel = .next t :=
  ⟨test_pixel_accepts, _, rfl⟩

/-- Both clauses of the target: -1 for any k, and a target of 2 at its last tick k = 2 × N. -/
theorem witness_PlaybackAdvances :
    base.busy = false ∧ 0 < ([⟨[1, 2, 3], 16⟩, ⟨[], 16⟩] : List StoredFrame).length
      ∧ (∀ f ∈ ([⟨[1, 2, 3], 16⟩, ⟨[], 16⟩] : List StoredFrame), f.pixels.length ≤ 65535)
      ∧ (-1 : ℤ) = -1 ∧ ((4 : ℕ) : ℤ) ≤ 2 * ([⟨[1, 2, 3], 16⟩, ⟨[], 16⟩] : List StoredFrame).length := by
  decide

theorem witness_PlaybackEmitsFramesInOrder :
    base.busy = false ∧ ([⟨[1, 2, 3], 16⟩, ⟨[], 16⟩] : List StoredFrame) ≠ []
      ∧ ∀ f ∈ ([⟨[1, 2, 3], 16⟩, ⟨[], 16⟩] : List StoredFrame), f.pixels.length ≤ 65535 := by
  decide

end Sys2Proof.Tests
end

section
/-!
The decoding of binary32 patterns (spec/00_scope.md R11): the model's integer over 2^149 against the exact rational
of R11's formula.
-/

namespace Sys2Proof.Claims

open Sys2Proof.Machine

/-- The model's test of a finite pattern is R11's. -/
theorem isFinite_iff (b : Word) : isFinite b = true ↔ Finite32 b := bne_iff_ne

theorem not_finite32_iff (b : Word) : ¬Finite32 b ↔ isFinite b = false := by
  rw [← isFinite_iff, Bool.not_eq_true]

theorem f32Fraction_eq_zero_iff (b : Word) : f32Fraction b = 0 ↔ b.extractLsb' 0 23 = 0 :=
  BitVec.toNat_inj (x := b.extractLsb' 0 23) (y := 0)

/-- R11's factor (-1)^s of a pattern. -/
def sign32 (b : Word) : ℚ := if b.getLsbD 31 then -1 else 1

theorem value32_of_exponent_eq_zero (b : Word) (he : f32Exponent b = 0) :
    value32 b = sign32 b * (2 : ℚ) ^ (-126 : ℤ) * (f32Fraction b / 2 ^ 23) := if_pos he

theorem value32_of_exponent_ne_zero (b : Word) (he : f32Exponent b ≠ 0) :
    value32 b = sign32 b * (2 : ℚ) ^ ((f32Exponent b : ℤ) - 127) * (1 + f32Fraction b / 2 ^ 23) := if_neg he

/-- The weight 2^(e-127) of a normal number, over the common denominator: the significand's 2^23 and the 2^(e-1) of the
magnitude make up for 2^149. -/
theorem two_zpow_exponent_sub_bias (e : ℕ) (he : e ≠ 0) :
    (2 : ℚ) ^ ((e : ℤ) - 127) = 2 ^ 23 * 2 ^ (e - 1) / 2 ^ 149 := by
  obtain ⟨k, rfl⟩ := Nat.exists_eq_succ_of_ne_zero he
  have hk : ((k.succ : ℕ) : ℤ) - 127 = k - 126 := by omega
  rw [hk, zpow_sub₀ two_ne_zero, zpow_natCast, Nat.succ_sub_one]
  norm_num
  ring

/-- R11's value of a pattern is its sign times the model's magnitude over 2^149. -/
theorem value32_eq_sign_mul_magnitude (b : Word) : value32 b = sign32 b * (f32Magnitude b / 2 ^ 149) := by
  by_cases he : f32Exponent b = 0
  · rw [value32_of_exponent_eq_zero b he, f32Magnitude, if_pos he]
    norm_num
    ring
  · rw [value32_of_exponent_ne_zero b he, f32Magnitude, if_neg he, two_zpow_exponent_sub_bias _ he]
    push_cast
    field_simp
    norm_num

/-- The signed numerator of a finite pattern, as a rational. -/
theorem num_f32_of_finite (b : Word) (h : Finite32 b) : ((f32 b).num : ℚ) = sign32 b * f32Magnitude b := by
  rw [f32_of_isFinite b ((isFinite_iff b).mpr h), F32.num_finite, sign32]
  split <;> simp

/-- R11 for a finite pattern: the model's numerator over 2^149 is the exact value. -/
theorem num_f32_div_eq_value32 (b : Word) (h : Finite32 b) : ((f32 b).num : ℚ) / 2 ^ 149 = value32 b := by
  rw [num_f32_of_finite b h, value32_eq_sign_mul_magnitude, mul_div_assoc]

theorem f32_eq_finite_num (b : Word) (h : Finite32 b) : f32 b = .finite (f32 b).num := by
  rw [f32_of_isFinite b ((isFinite_iff b).mpr h), F32.num_finite]

theorem f32_eq_infinite (b : Word) (h : ¬Finite32 b) (hf : b.extractLsb' 0 23 = 0) :
    f32 b = .infinite (b.getLsbD 31) := by
  rw [f32_of_not_isFinite b ((not_finite32_iff b).mp h), if_pos ((f32Fraction_eq_zero_iff b).mpr hf)]

theorem f32_eq_nan (b : Word) (h : ¬Finite32 b) (hf : b.extractLsb' 0 23 ≠ 0) : f32 b = .nan := by
  rw [f32_of_not_isFinite b ((not_finite32_iff b).mp h), if_neg (mt (f32Fraction_eq_zero_iff b).mp hf)]

/-- Settles O36: by the three kinds of pattern; a finite one has the numerator of its sign and magnitude. -/
theorem binary32DecodesExactly : Obligations.Binary32DecodesExactly := fun b =>
  ⟨fun h => ⟨(f32 b).num, f32_eq_finite_num b h, num_f32_div_eq_value32 b h⟩, f32_eq_infinite b, f32_eq_nan b⟩

end Sys2Proof.Claims
end

section
/-!
What a step can do, said once: the ways the engine step ends (spec/10_state.md R40) and the effect of the outside
world's step on the stored bytes and on the registers that only the engine writes.
-/

namespace Sys2Proof.Machine

open Sys2Proof.Claims

/-! ## Command words -/

theorem eq_encode_of_decode (w : Word) (i : Instr) (h : decode w = .ok i) : w = Sys2Proof.encode i := by
  unfold decode at h
  split_ifs at h <;> cases h <;> assumption

/-! ## The engine step -/

/-- The state after a GAMMA_BUILD that passes its checks (R113). -/
def State.gammaBuilt (s : State) : State := { s.storeAt (lutAddr 0 0) s.lutBytes with lutValid := true }

/-- The state after an ENCODE that passes its check (R173). -/
def State.encoded (s : State) : State :=
  { (s.storeAt Region.pkt.base s.packet).draw s.opL with pktLen := 10 + s.payloadLen }

/-- The engine step always completes: it reports a code and changes nothing else, or it is the accepted one of the four
commands that write. -/
theorem engineStep_cases (s : State) :
    (∃ code, engineStep s = .next (s.finish code))
    ∨ (s.pending = Sys2Proof.encode .gammaBuild ∧ s.lutValid = false ∧ engineStep s = .next (s.gammaBuilt.finish .ok))
    ∨ (sampleCheck Config.srcBytes s = none ∧ engineStep s = .next (s.sampled.finish .ok))
    ∨ (s.opL ≤ 65535 ∧ engineStep s = .next (s.encoded.finish .ok))
    ∨ engineStep s = .next (s.resetRegisters.finish .ok) := by
  cases hd : decode s.pending with
  | error e => exact .inl ⟨_, engineStep_of_reject s e hd⟩
  | ok i =>
    have hp := eq_encode_of_decode _ _ hd
    rw [engineStep_of_decode s i hd]
    cases i with
    | nop => exact .inl ⟨_, rfl⟩
    | gammaBuild =>
      obtain ⟨-, e⟩ | ⟨-, -, e⟩ | ⟨hv, -, e⟩ := execGammaBuild_cases s
      · exact .inl ⟨_, e⟩
      · exact .inl ⟨_, e⟩
      · exact .inr (.inl ⟨hp, hv, e⟩)
    | sample =>
      obtain ⟨code, -, e⟩ | ⟨hc, e⟩ := execSample_cases s
      · exact .inl ⟨code, e⟩
      · exact .inr (.inr (.inl ⟨hc, e⟩))
    | encode =>
      obtain ⟨-, e⟩ | ⟨hL, e⟩ := execEncode_cases s
      · exact .inl ⟨_, e⟩
      · exact .inr (.inr (.inr (.inl ⟨hL, e⟩)))
    | softReset => exact .inr (.inr (.inr (.inr rfl)))

/-- The engine is idle after every command (R40). -/
theorem engineStep_completes (s : State) : ∃ t, engineStep s = .next t ∧ t.busy = false := by
  obtain ⟨_, e⟩ | ⟨-, -, e⟩ | ⟨-, e⟩ | ⟨-, e⟩ | e := engineStep_cases s <;> exact ⟨_, e, rfl⟩

/-! ## The step of the outside world -/

/-- A write stores into FRAME or SRC alone: the other storage regions are read-only to the host (R61, R67). -/
theorem target_bytes_write (a : Word) (n : Nat) (r : Region) (h : target a n true = some (.bytes r)) :
    (r = .frame ∨ r = .src) ∧ r.contains a.toNat n = true := by
  obtain ⟨hs, hc, hro⟩ := target_bytes a n true r h
  refine ⟨?_, hc⟩
  have hro := hro rfl
  cases r <;> simp_all [Region.holdsBytes, Region.readOnly]

/-- The memory of `t` is that of `s` after a store of some bytes that region `r` holds. -/
def Stores (s t : State) (r : Region) : Prop :=
  ∃ (base : Nat) (bs : List Byte), r.contains base bs.length = true ∧ t.mem = Memory.store s.mem base bs

/-- The outside world's step is a hardware reset, or keeps LUT_VALID, PKT_LEN and RESULT and stores into FRAME or SRC
at most. -/
theorem inputStep_effect (s : State) :
    (∃ rest, s.inputs = .reset :: rest ∧ inputStep s = (s.take rest).hardReset)
    ∨ ((inputStep s).lutValid = s.lutValid ∧ (inputStep s).pktLen = s.pktLen ∧ (inputStep s).result = s.result
        ∧ ((inputStep s).mem = s.mem ∨ ∃ r, (r = .frame ∨ r = .src) ∧ Stores s (inputStep s) r)) := by
  obtain ⟨-, e⟩ | ⟨a, n, rest, -, e⟩ | ⟨a, n, d, rest, -, e⟩ | ⟨rest, -, e⟩ | h := inputStep_cases s
  · right; simp [e]
  · right; simp [e]
  · right
    obtain hm | ⟨r, hr, hm⟩ := hostWrite_mem (s.take rest) a n d
    · simp [e, hm]
    · obtain ⟨hfs, hc⟩ := target_bytes_write a n r hr
      refine ⟨by simp [e], by simp [e], by simp [e], .inr ⟨r, hfs, a.toNat, bytesOfWord n d, ?_, ?_⟩⟩
      · rwa [bytesOfWord_length]
      · rw [e]; exact hm
  · right; simp [e]
  · exact .inl h

/-! ## The step -/

/-- A step is the engine's step in its turn, else the outside world's. -/
theorem step_next_cases (s t : State) (h : step s = .next t) :
    (s.engineTurn = true ∧ engineStep s = .next t) ∨ (s.engineTurn = false ∧ t = inputStep s) := by
  cases hs : s.engineTurn
  · rw [step_of_not_turn s hs] at h
    cases h
    exact .inr ⟨rfl, rfl⟩
  · exact .inl ⟨rfl, by rw [← step_of_turn s hs, h]⟩

/-- The frame of an accepted SAMPLE fits FRAME (R134). -/
theorem stores_sampled (s : State) (h : sampleCheck Config.srcBytes s = none) :
    Stores s (s.sampled.finish .ok) .frame := by
  obtain ⟨-, -, -, -, -, -, hfit⟩ := (sampleCheck_none_iff _ s).mp h
  refine ⟨Region.frame.base, (List.range s.frameLen).map s.frameByte, ?_, rfl⟩
  rw [Region.contains_iff, List.length_map, List.length_range]
  exact ⟨le_rfl, Nat.add_le_add_left hfit _⟩

/-- The packet of a payload of at most 65535 bytes fits PKT (R171). -/
theorem stores_encoded (s : State) (h : s.opL ≤ 65535) : Stores s (s.encoded.finish .ok) .pkt := by
  refine ⟨Region.pkt.base, s.packet, ?_, rfl⟩
  rw [Region.contains_iff, State.packet_length]
  exact ⟨le_rfl, Nat.add_le_add_left (Nat.add_le_add_left h 10) _⟩

/-- What a step can do to the stored bytes, LUT_VALID and PKT_LEN. -/
inductive StepEffect (s t : State) : Prop
  /-- Every step but the ones below. -/
  | keeps (mem : t.mem = s.mem) (lutValid : t.lutValid = s.lutValid) (pktLen : t.pktLen = s.pktLen)
  /-- A write of the host into FRAME or SRC (R62), or an accepted SAMPLE, into FRAME (R130). -/
  | stores (r : Region) (region : r = .frame ∨ r = .src) (stored : Stores s t r) (lutValid : t.lutValid = s.lutValid)
      (pktLen : t.pktLen = s.pktLen)
  /-- An accepted GAMMA_BUILD (R113). -/
  | builds (turn : s.engineTurn = true) (pending : s.pending = Sys2Proof.encode .gammaBuild)
      (unlocked : s.lutValid = false) (next : t = s.gammaBuilt.finish .ok)
  /-- An accepted ENCODE (R173). -/
  | encodes (short : s.opL ≤ 65535) (next : t = s.encoded.finish .ok)
  /-- SOFT_RESET, which keeps the bytes (R192), or the hardware reset, which does not (R240). -/
  | resets (mem : t.mem = s.mem ∨ t.mem = []) (lutValid : t.lutValid = false) (pktLen : t.pktLen = 0)

theorem step_effect (s t : State) (h : step s = .next t) : StepEffect s t := by
  obtain ⟨ht, e⟩ | ⟨-, rfl⟩ := step_next_cases s t h
  · obtain ⟨code, e'⟩ | ⟨hp, hv, e'⟩ | ⟨hc, e'⟩ | ⟨hL, e'⟩ | e' := engineStep_cases s <;>
      (rw [e'] at e; cases e)
    · exact .keeps rfl rfl rfl
    · exact .builds ht hp hv rfl
    · exact .stores .frame (.inl rfl) (stores_sampled s hc) rfl rfl
    · exact .encodes hL rfl
    · exact .resets (.inl rfl) rfl rfl
  · obtain ⟨rest, -, e⟩ | ⟨hv, hl, -, hm | ⟨r, hr, hst⟩⟩ := inputStep_effect s
    · rw [e]; exact .resets (.inr rfl) rfl rfl
    · exact .keeps hm hv hl
    · exact .stores r hr hst hv hl

end Sys2Proof.Machine
end

section
/-!
The invariants of the stored bytes (spec/10_state.md R38, R42; spec/20_memory.md R67): each step keeps them, by what a
store into one region does to its own bytes and to every other region.
-/

namespace Sys2Proof.Machine

open Sys2Proof.Claims

/-! ## Stores and regions -/

/-- A byte that has been written stays written under a store. -/
theorem Memory.isSome_get?_store (m : Memory) (base : Nat) (bs : List Byte) (a : Nat)
    (h : (Memory.get? m a).isSome = true) : (Memory.get? (Memory.store m base bs) a).isSome = true := by
  rw [Memory.get?_store]
  split
  · rw [List.getElem?_eq_getElem (by omega)]; rfl
  · exact h

/-- A region ends before the next one begins (R67). -/
theorem Region.disjoint (r r' : Region) (h : r ≠ r') : r.base + r.size ≤ r'.base ∨ r'.base + r'.size ≤ r.base := by
  cases r <;> cases r' <;> simp_all [Region.base, Region.size, frameBytes, pktBytes]

/-- A store into one region leaves the bytes of every other region alone. -/
theorem Stores.same_of_ne {s t : State} {r r' : Region} (h : Stores s t r) (hne : r ≠ r') (a : Nat)
    (ha : r'.contains a 1 = true) : Same s t a := by
  obtain ⟨base, bs, hr, hm⟩ := h
  rw [Region.contains_iff] at hr ha
  have := Region.disjoint r r' hne
  rw [Same, hm]
  exact Memory.get?_store_outside _ _ _ _ (by omega)

/-- The LUT region of a channel (R67). -/
def lutRegion : Fin 3 → Region
  | 0 => .lutR
  | 1 => .lutG
  | 2 => .lutB

theorem lutRegion_contains (c : Fin 3) (i : Nat) (hi : i < 256) : (lutRegion c).contains (lutAddr c i) 1 = true := by
  rw [Region.contains_iff]
  fin_cases c <;> simp [lutRegion, lutAddr, Region.base, Region.size] <;> omega

theorem lutRegion_holdsBytes (c : Fin 3) : (lutRegion c).holdsBytes = true := by fin_cases c <;> rfl

/-- Entry i of channel c is entry 256 × c + i of the 768 that GAMMA_BUILD stores. -/
theorem lutAddr_eq_add (c : Fin 3) (i : Nat) : lutAddr c i = lutAddr 0 0 + (256 * c.val + i) := by
  simp [lutAddr]; omega

/-- Every address that GAMMA_BUILD stores to is an entry of the LUT. -/
theorem exists_eq_lutAddr (a : Nat) (h1 : lutAddr 0 0 ≤ a) (h2 : a < lutAddr 0 0 + 768) :
    ∃ (c : Fin 3) (i : Nat), i < 256 ∧ a = lutAddr c i := by
  refine ⟨⟨(a - lutAddr 0 0) / 256, by omega⟩, (a - lutAddr 0 0) % 256, by omega, ?_⟩
  rw [lutAddr_eq_add]; simp only; omega

theorem isStorage_of_lutAddr (a : Nat) (h1 : lutAddr 0 0 ≤ a) (h2 : a < lutAddr 0 0 + 768) : isStorage a = true := by
  obtain ⟨c, i, hi, rfl⟩ := exists_eq_lutAddr a h1 h2
  exact isStorage_of_contains _ _ (lutRegion_holdsBytes c) (lutRegion_contains c i hi)

/-! ## The invariant of the machine -/

/-- A store at storage addresses keeps the memory mapped. -/
theorem State.Mapped.store {s t : State} (h : s.Mapped) (base : Nat) (bs : List Byte)
    (hm : t.mem = Memory.store s.mem base bs)
    (hs : ∀ a, base ≤ a → a < base + bs.length → isStorage a = true) : t.Mapped := by
  intro c hc
  rw [hm] at hc
  obtain hc | ⟨h1, h2⟩ := Memory.mem_store _ _ _ c hc
  · exact h c hc
  · exact hs _ h1 h2

/-- A step that changes neither the bytes nor LUT_VALID keeps the invariant. -/
theorem State.Inv.congr {s t : State} (h : s.Inv) (hm : t.mem = s.mem) (hv : t.lutValid = s.lutValid) : t.Inv where
  canonical := by rw [hm]; exact h.canonical
  mapped := by rw [State.Mapped, hm]; exact h.mapped
  lutBuilt := by rw [State.LutBuilt, hm, hv]; exact h.lutBuilt

/-- A store into a storage region keeps the invariant. -/
theorem State.Inv.stores {s t : State} {r : Region} (h : s.Inv) (hs : Stores s t r) (hr : r.holdsBytes = true)
    (hv : t.lutValid = s.lutValid) : t.Inv := by
  obtain ⟨base, bs, hc, hm⟩ := hs
  rw [Region.contains_iff] at hc
  refine ⟨?_, ?_, fun ht c i hi => ?_⟩
  · rw [hm]; exact Memory.wf_store _ _ _ h.canonical
  · exact h.mapped.store base bs hm fun a h1 h2 =>
      isStorage_of_contains r a hr ((Region.contains_iff r a 1).mpr (by omega))
  · rw [hm]
    exact Memory.isSome_get?_store _ _ _ _ (h.lutBuilt (hv ▸ ht) c i hi)

/-- GAMMA_BUILD writes all 768 entries and sets LUT_VALID (R113). -/
theorem State.Inv.gammaBuilt {s : State} (h : s.Inv) : (s.gammaBuilt.finish .ok).Inv where
  canonical := Memory.wf_store _ _ _ h.canonical
  mapped := h.mapped.store (lutAddr 0 0) s.lutBytes rfl (by rw [State.lutBytes_length]; exact isStorage_of_lutAddr)
  lutBuilt _ c i hi := by
    have hk : 256 * c.val + i < s.lutBytes.length := by rw [State.lutBytes_length]; omega
    rw [lutAddr_eq_add, State.finish_mem]
    exact Option.isSome_iff_exists.mpr ⟨_, Memory.get?_store_inside _ _ _ _ hk⟩

/-- Both resets clear LUT_VALID; one keeps the bytes and one has none left. -/
theorem State.Inv.resets {s t : State} (h : s.Inv) (hm : t.mem = s.mem ∨ t.mem = []) (hv : t.lutValid = false) :
    t.Inv where
  canonical := by
    obtain hm | hm := hm <;> rw [hm]
    · exact h.canonical
    · rfl
  mapped := by
    obtain hm | hm := hm <;> rw [State.Mapped, hm]
    · exact h.mapped
    · simp
  lutBuilt := by simp [State.LutBuilt, hv]

/-- Settles O9: by what a step can do to the bytes and to LUT_VALID. -/
theorem stepKeepsInv : Obligations.StepKeepsInv := by
  intro s t h hstep
  cases step_effect s t hstep with
  | keeps hm hv _ => exact h.congr hm hv
  | stores r hr hst hv _ => exact h.stores hst (by obtain rfl | rfl := hr <;> rfl) hv
  | builds _ _ _ ht => rw [ht]; exact h.gammaBuilt
  | encodes hL ht => rw [ht]; exact h.stores (stores_encoded s hL) rfl rfl
  | resets hm hv _ => exact h.resets hm hv

/-! ## The packet -/

/-- The header as the model builds it is the header as R172 writes it out. -/
theorem ddpHeader_eq_header (L : Word) : ddpHeader L = header L.toNat := by
  have hhi : L.extractLsb' 8 8 = BitVec.ofNat 8 (L.toNat / 256) := by
    rw [BitVec.extractLsb', Nat.shiftRight_eq_div_pow]
  have hlo : L.extractLsb' 0 8 = BitVec.ofNat 8 L.toNat := by rw [BitVec.extractLsb', Nat.shiftRight_zero]
  rw [ddpHeader, header, hhi, hlo]

/-- PacketSound speaks of PKT_LEN and of the bytes of PKT alone. -/
theorem packetSound_congr {s t : State} (h : PacketSound s) (hl : t.pktLen = s.pktLen)
    (hp : ∀ a, Region.pkt.contains a 1 = true → Same s t a) : PacketSound t := by
  intro hne
  rw [hl] at hne ⊢
  obtain ⟨L, hL, hlen, hhead, hall⟩ := h hne
  have hsame : ∀ k, k < 10 + L → Memory.get? t.mem (Region.pkt.base + k) = Memory.get? s.mem (Region.pkt.base + k) :=
    fun k hk => hp _ ((Region.contains_iff _ _ _).mpr (by simp only [Region.size, pktBytes]; omega))
  refine ⟨L, hL, hlen, fun k hk => ?_, fun k hk => ?_⟩
  · rw [Holds, hsame k (by omega)]; exact hhead k hk
  · simp only [Holds, hsame k hk]; exact hall k hk

/-- GAMMA_BUILD leaves PKT alone. -/
theorem same_gammaBuilt_of_pkt (s : State) (a : Nat) (h : Region.pkt.contains a 1 = true) :
    Same s (s.gammaBuilt.finish .ok) a := by
  rw [Region.contains_iff] at h
  refine Memory.get?_store_outside _ _ _ _ (.inr ?_)
  rw [State.lutBytes_length]
  exact le_trans (by decide) h.1

/-- PKT_LEN after an accepted ENCODE, without overflow (R173). -/
theorem toNat_encoded_pktLen (s : State) (h : s.opL ≤ 65535) : s.encoded.pktLen.toNat = 10 + s.opL := by
  have e : s.encoded.pktLen = 10 + s.payloadLen := rfl
  rw [State.opL] at h ⊢
  rw [e, BitVec.toNat_add, Nat.mod_eq_of_lt (by simp; omega)]
  rfl

/-- The header is the first 10 bytes of the packet. -/
theorem packet_getElem_header (s : State) (k : Nat) (hk : k < 10) :
    s.packet[k]'(by rw [State.packet_length]; omega) = (header s.opL)[k]'hk := by
  simp only [State.packet, ddpHeader_eq_header]
  exact List.getElem_append_left hk

/-- ENCODE leaves a whole packet (R173). -/
theorem packetSound_encoded (s : State) (h : s.opL ≤ 65535) : PacketSound (s.encoded.finish .ok) := by
  refine fun _ => ⟨s.opL, h, toNat_encoded_pktLen s h, fun k hk => ?_, fun k hk => ?_⟩ <;>
    have hlen : k < s.packet.length := by rw [State.packet_length]; omega
  · rw [← packet_getElem_header s k hk]
    exact Memory.get?_store_inside _ _ _ _ hlen
  · exact ⟨_, Memory.get?_store_inside _ _ _ _ hlen⟩

theorem packetSound_of_pktLen_eq_zero (s : State) (h : s.pktLen = 0) : PacketSound s := fun hne => absurd h hne

/-- Settles O11: PKT_LEN and PKT change together in ENCODE, and in a reset, which clears PKT_LEN. -/
theorem stepKeepsPacketSound : Obligations.StepKeepsPacketSound := by
  intro s t h hstep
  cases step_effect s t hstep with
  | keeps hm _ hl => exact packetSound_congr h hl fun a _ => congrArg (Memory.get? · a) hm
  | stores r hr hst _ hl =>
    exact packetSound_congr h hl (hst.same_of_ne (by obtain rfl | rfl := hr <;> decide))
  | builds _ _ _ ht => rw [ht]; exact packetSound_congr h rfl (same_gammaBuilt_of_pkt s)
  | encodes hL ht => rw [ht]; exact packetSound_encoded s hL
  | resets _ _ hl => exact packetSound_of_pktLen_eq_zero t hl

/-- Settles O12: PKT_LEN is 0 after reset. -/
theorem resetHasPacketSound : Obligations.ResetHasPacketSound := packetSound_of_pktLen_eq_zero _ rfl

/-! ## The LUT -/

theorem execGammaBuild_of_locked (s : State) (h : s.lutValid = true) :
    execGammaBuild s = .next (s.finish .lutLocked) := if_pos h

/-- A GAMMA_BUILD whose result is OK has set LUT_VALID. -/
theorem lutValid_of_execGammaBuild_ok (s t : State) (h : execGammaBuild s = .next t) (hr : t.result = .ok) :
    t.lutValid = true := by
  obtain ⟨-, e⟩ | ⟨-, -, e⟩ | ⟨-, -, e⟩ := execGammaBuild_cases s <;> (rw [e] at h; cases h)
  · cases hr
  · cases hr
  · rfl

/-- LUT_VALID rises only by an accepted GAMMA_BUILD (R42). -/
theorem gammaBuild_of_lutValid_rises (s t : State) (h : step s = .next t) (hs : s.lutValid = false)
    (ht : t.lutValid = true) : s.engineTurn = true ∧ s.pending = Sys2Proof.encode .gammaBuild ∧ t.result = .ok := by
  cases step_effect s t h with
  | keeps _ hv _ => rw [hv, hs] at ht; cases ht
  | stores _ _ _ hv _ => rw [hv, hs] at ht; cases ht
  | builds hturn hp _ e => exact ⟨hturn, hp, by rw [e]; rfl⟩
  | encodes _ e => rw [e] at ht; exact absurd (hs.symm.trans ht) Bool.false_ne_true
  | resets _ hv _ => rw [hv] at ht; cases ht

/-- No step changes the LUT while LUT_VALID stays 1 (R42). -/
theorem same_lut_of_lutValid (s t : State) (h : step s = .next t) (hs : s.lutValid = true) (ht : t.lutValid = true)
    (c : Fin 3) (i : Nat) (hi : i < 256) : Same s t (lutAddr c i) := by
  cases step_effect s t h with
  | keeps hm _ _ => exact congrArg (Memory.get? · _) hm
  | stores r hr hst _ _ =>
    exact hst.same_of_ne (by obtain rfl | rfl := hr <;> fin_cases c <;> decide) _ (lutRegion_contains c i hi)
  | builds _ _ hv _ => rw [hs] at hv; cases hv
  | encodes hL e =>
    rw [e]
    exact (stores_encoded s hL).same_of_ne (by fin_cases c <;> decide) _ (lutRegion_contains c i hi)
  | resets _ hv _ => rw [ht] at hv; cases hv

/-- Settles O13: part by part. -/
theorem lutLifecycle : Obligations.LutLifecycle :=
  ⟨fun _ => rfl, fun _ => ⟨_, rfl, rfl⟩, lutValid_of_execGammaBuild_ok, gammaBuild_of_lutValid_rises,
    execGammaBuild_of_locked, same_lut_of_lutValid⟩

end Sys2Proof.Machine
end

section
/-!
Transactions on the control registers: what a read gives and what a write does at each of the offsets of
spec/10_state.md R23, by one equation per kind of target.
-/

namespace Sys2Proof.Machine

open Sys2Proof.Claims

/-! ## One equation per target -/

/-- A 4-byte transaction at a register's offset reaches that register. -/
theorem target_csr (r : Csr) (w : Bool) : target (BitVec.ofNat 32 r.offset) 4 w = some (.register r) := by
  cases r <;> cases w <;> rfl

theorem hostRead_csr (s : State) (r : Csr) :
    hostRead s (BitVec.ofNat 32 r.offset) 4 = (s, ⟨.ok, some (s.csrRead r)⟩) := by
  rw [hostRead, target_csr]

theorem hostWrite_of_target_status (s : State) (a : Word) (n : Nat) (d : Word)
    (h : target a n true = some (.register .status)) : hostWrite s a n d = (s.statusWrite d, ⟨.ok, none⟩) := by
  rw [hostWrite, h]

theorem hostWrite_of_target_cmd (s : State) (a : Word) (n : Nat) (d : Word)
    (h : target a n true = some (.register .cmd)) :
    hostWrite s a n d = (if s.busy then { s with cmdOvr := true } else s.accept d, ⟨.ok, none⟩) := by
  rw [hostWrite, h]

theorem hostWrite_of_target_register (s : State) (a : Word) (n : Nat) (d : Word) (r : Csr)
    (h : target a n true = some (.register r)) (hst : r ≠ .status) (hcmd : r ≠ .cmd) :
    hostWrite s a n d = (if s.busy then { s with wrBusy := true } else s.csrWrite r d, ⟨.ok, none⟩) := by
  rw [hostWrite, h]
  cases r <;> trivial

/-! ## STATUS and CMD -/

/-- Settles O22: CMD is write-only, and a write to it is accepted or counted as an overrun by BUSY. -/
theorem cmdWriteStartsCommand : Obligations.CmdWriteStartsCommand := by
  intro s d
  have hw := hostWrite_of_target_cmd s 0x08 4 d (target_csr .cmd true)
  refine ⟨hostRead_csr s .cmd, fun hb => ⟨s.accept d, ?_, rfl⟩, fun hb => ?_⟩
  · rw [hw, hb]; rfl
  · rw [hw, hb]; rfl

/-- Settles O24: each sticky bit is kept where its bit of the data is 0. -/
theorem statusWriteOneToClear : Obligations.StatusWriteOneToClear := by
  intro s d
  refine ⟨s.statusWrite d, hostWrite_of_target_status s _ _ d (target_csr .status true), rfl, ?_, ?_⟩
  · rw [State.statusWrite_cmdOvr]
    cases d.getLsbD 8 <;> simp
  · rw [State.statusWrite_wrBusy]
    cases d.getLsbD 9 <;> simp

/-- STATUS field by field (R25): of the finitely many values of its five fields, each is where the layout has it. -/
theorem State.statusWord_layout (s : State) :
    s.statusWord.getLsbD 0 = s.busy ∧ s.statusWord.getLsbD 1 = s.lutValid ∧ s.statusWord.extractLsb' 2 2 = 0
      ∧ s.statusWord.extractLsb' 4 4 = s.result.code ∧ s.statusWord.getLsbD 8 = s.cmdOvr
      ∧ s.statusWord.getLsbD 9 = s.wrBusy ∧ s.statusWord.extractLsb' 10 22 = 0 := by
  rw [State.statusWord]
  generalize s.busy = busy, s.lutValid = valid, s.cmdOvr = overrun, s.wrBusy = dropped
  generalize s.result = code
  revert busy valid overrun dropped
  cases code <;> decide

/-- Settles O23: a read of STATUS gives the word whose layout is known. -/
theorem statusLayout : Obligations.StatusLayout :=
  ⟨fun s => ⟨s.statusWord, hostRead_csr s .status, s.statusWord_layout⟩, rfl, rfl, rfl, rfl, rfl, rfl, rfl, rfl⟩

/-! ## The other registers -/

/-- Settles O25: each read is the one equation of `hostRead_csr`. -/
theorem everyRegisterReads : Obligations.EveryRegisterReads := fun s =>
  have read := hostRead_csr s
  ⟨read .id, read .status, read .cmd, read .srcWidth, read .srcHeight, read .matWidth, read .matHeight, read .corrR,
    read .corrG, read .corrB, read .brightness, read .gammaR, read .gammaG, read .gammaB, read .srcDelayCs,
    read .minDelayMs, read .frameDelayMs, read .payloadLen, read .pktLen, read .capSrcBytes, read .capFrameBytes,
    read, rfl⟩

/-- Settles O32: register by register. -/
theorem resetRegisterValues : Obligations.ResetRegisterValues := by
  intro r
  cases r <;> rfl

/-- A 16-bit register gives back the low half of what was written. -/
theorem setWidth_setWidth_eq_and (d : Word) : (d.setWidth 16).setWidth 32 = d &&& 0x0000FFFF := by
  apply BitVec.eq_of_toNat_eq
  simp only [BitVec.toNat_setWidth, BitVec.toNat_and]
  exact (Nat.mod_eq_of_lt (by omega)).trans (Nat.and_two_pow_sub_one_eq_mod d.toNat 16).symm

/-- A RW register reads as the defined bits of what was written (R45). -/
theorem State.csrRead_csrWrite_same (s : State) (r : Csr) (d m : Word) (h : rwMask r = some m) :
    (s.csrWrite r d).csrRead r = d &&& m := by
  cases r with
  | srcWidth | srcHeight | matWidth | matHeight =>
    cases h
    exact setWidth_setWidth_eq_and d
  | corrR | corrG | corrB | brightness | gammaR | gammaG | gammaB | srcDelayCs | minDelayMs | payloadLen =>
    cases h
    exact BitVec.and_allOnes.symm
  | id | status | cmd | frameDelayMs | pktLen | capSrcBytes | capFrameBytes => cases h

/-- A register write changes no other register. -/
theorem State.csrRead_csrWrite_other (s : State) (r r' : Csr) (d : Word) (h : r' ≠ r) :
    (s.csrWrite r d).csrRead r' = s.csrRead r' := by
  cases r <;> cases r' <;> trivial

/-- A register that is neither RW nor STATUS nor CMD ignores a write (R45). -/
theorem State.csrWrite_readOnly (s : State) (r : Csr) (d : Word) (h : rwMask r = none) : s.csrWrite r d = s := by
  cases r <;> trivial

/-- Settles O26: an idle write is `csrWrite`, by its laws on the register written and on the others. -/
theorem registerWriteReadsBack : Obligations.RegisterWriteReadsBack := by
  intro s r d hidle
  have hwrite (hst : r ≠ .status) (hcmd : r ≠ .cmd) :
      hostWrite s (BitVec.ofNat 32 r.offset) 4 d = (s.csrWrite r d, ⟨.ok, none⟩) := by
    rw [hostWrite_of_target_register s _ _ d r (target_csr r true) hst hcmd, hidle]
    rfl
  refine ⟨fun m hm => ?_, fun hro hst hcmd => ?_⟩
  · obtain ⟨-, -, -, -, -, -, -, hpending, hmem, -, -, -, hfree⟩ := s.csrWrite_frame r d
    exact ⟨s.csrWrite r d, hwrite (by rintro rfl; cases hm) (by rintro rfl; cases hm), s.csrRead_csrWrite_same r d m hm,
      fun r' => s.csrRead_csrWrite_other r r' d, hmem, hpending, hfree⟩
  · rw [hwrite hst hcmd, s.csrWrite_readOnly r d hro]

end Sys2Proof.Machine
end

section
/-!
When RESULT and BUSY change (spec/10_state.md R25, R26, R40), and how a pending command comes to be performed
(spec/20_memory.md R63, R76).
-/

namespace Sys2Proof.Machine

open Sys2Proof.Claims

/-! ## The command that is performed -/

theorem decode_of_decodeTableWord (nbits w : Nat) (i : Instr) (h : decodeTableWord nbits w = some i) :
    decode (tableWord nbits w) = .ok i := by
  unfold decodeTableWord at h
  cases hd : decode (tableWord nbits w) <;> rw [hd] at h <;> cases h
  rfl

theorem step_eq_exec (s : State) (i : Instr) (ht : s.engineTurn = true) (hd : decode s.pending = .ok i) :
    step s = exec i s := by rw [step_of_turn s ht, engineStep_of_decode s i hd]

/-- Settles O5: both parts are the engine's step on a word that decodes. -/
theorem stepPerformsPendingCommand : Obligations.StepPerformsPendingCommand :=
  ⟨step_eq_exec, fun _ nbits w i h => step_eq_exec _ i rfl (decode_of_decodeTableWord nbits w i h)⟩

/-! ## RESULT and BUSY -/

/-- Settles O16: the outside world's step keeps RESULT but for the hardware reset. -/
theorem resultChangesOnlyAtCompletion : Obligations.ResultChangesOnlyAtCompletion := by
  intro s t h hne
  obtain ⟨ht, -⟩ | ⟨ht, rfl⟩ := step_next_cases s t h
  · exact .inl ht
  · obtain ⟨rest, hin, -⟩ | ⟨-, -, hr, -⟩ := inputStep_effect s
    · exact .inr ⟨ht, rest, hin⟩
    · exact absurd hr hne

/-- While BUSY = 0 only a write that reaches CMD raises BUSY, and it latches the data (R26). -/
theorem cmd_of_hostWrite_busy (s : State) (a : Word) (n : Nat) (d : Word) (hs : s.busy = false)
    (ht : (hostWrite s a n d).1.busy = true) :
    target a n true = some (.register .cmd) ∧ (hostWrite s a n d).1.pending = d := by
  by_cases hcmd : target a n true = some (.register .cmd)
  · rw [hostWrite_of_target_cmd s a n d hcmd, hs]
    exact ⟨hcmd, rfl⟩
  · have hidle : (hostWrite s a n d).1.busy = s.busy := by
      unfold hostWrite
      split
      · rfl
      · rfl
      · next h => exact absurd h hcmd
      · next r _ _ _ => simp [hs, s.csrWrite_frame r d]
      · simp [hs]
    rw [hidle, hs] at ht
    cases ht

/-- The only address of CMD. -/
theorem eq_of_target_cmd (a : Word) (n : Nat) (h : target a n true = some (.register .cmd)) : a = 0x08 ∧ n = 4 := by
  obtain ⟨hn, ha⟩ := target_register a n true .cmd h
  exact ⟨BitVec.eq_of_toNat_eq ha, hn⟩

/-- Settles O17: by the kinds of input; a read, a POLL and a reset leave an idle block idle. -/
theorem busyRisesOnlyByCmdWrite : Obligations.BusyRisesOnlyByCmdWrite := by
  intro s t h hs ht
  obtain ⟨hturn, -⟩ | ⟨-, rfl⟩ := step_next_cases s t h
  · rw [busy_of_turn s hturn] at hs
    cases hs
  · obtain ⟨-, e⟩ | ⟨a, n, rest, -, e⟩ | ⟨a, n, d, rest, hin, e⟩ | ⟨rest, -, e⟩ | ⟨rest, -, e⟩ := inputStep_cases s <;>
      rw [e] at ht ⊢
    · simp [hs] at ht
    · simp [hs] at ht
    · obtain ⟨htgt, hp⟩ := cmd_of_hostWrite_busy (s.take rest) a n d hs ht
      obtain ⟨rfl, rfl⟩ := eq_of_target_cmd a n htgt
      exact ⟨d, rest, hin, hp⟩
    · simp [hs] at ht
    · simp at ht

/-! ## The wait for the engine -/

/-- Nothing has changed but the two sticky bits and the model's own fields. -/
def Frozen (s u : State) : Prop :=
  u = { s with
    cmdOvr := u.cmdOvr, wrBusy := u.wrBusy, inputs := u.inputs, replies := u.replies
    engineWait := u.engineWait, freeIx := u.freeIx }

theorem Frozen.refl (s : State) : Frozen s s := rfl

theorem Frozen.trans {s t u : State} (h : Frozen s t) (h' : Frozen t u) : Frozen s u := by
  unfold Frozen at *
  rw [h] at h'
  exact h'

theorem Frozen.busy {s u : State} (h : Frozen s u) : u.busy = s.busy := (congrArg State.busy h :)

theorem Frozen.take (s : State) (rest : List Input) : Frozen s (s.take rest) := rfl

theorem Frozen.answer (p : State × Reply) : Frozen p.1 (State.answer p) := rfl

theorem Frozen.hostRead (s : State) (a : Word) (n : Nat) : Frozen s (hostRead s a n).1 := by
  obtain e | e := hostRead_state s a n <;> rw [e] <;> rfl

theorem Frozen.hostWrite (s : State) (a : Word) (n : Nat) (d : Word) (hb : s.busy = true) :
    Frozen s (hostWrite s a n d).1 := by
  rw [hostWrite_of_busy s a n d hb]
  rfl

theorem hostWrite_engineWait_of_busy (s : State) (a : Word) (n : Nat) (d : Word) (hb : s.busy = true) :
    (hostWrite s a n d).1.engineWait = s.engineWait :=
  (congrArg State.engineWait (hostWrite_of_busy s a n d hb) :)

/-- An input other than a reset, taken while BUSY = 1: the registers and bytes stay (R63), the engine waits for one
input less, and no reset comes among the inputs. -/
theorem inputStep_of_busy (s : State) (hb : s.busy = true) (hne : s.inputs ≠ []) (hr : Input.reset ∉ s.inputs) :
    Frozen s (inputStep s) ∧ (inputStep s).engineWait = s.engineWait - 1 ∧ Input.reset ∉ (inputStep s).inputs := by
  obtain ⟨h, -⟩ | ⟨a, n, rest, h, e⟩ | ⟨a, n, d, rest, h, e⟩ | ⟨rest, h, e⟩ | ⟨rest, h, -⟩ := inputStep_cases s
  · exact absurd h hne
  · rw [e]
    refine ⟨((Frozen.take s rest).trans (.hostRead _ a n)).trans (.answer _), by simp, ?_⟩
    simpa [h] using hr
  · rw [e]
    refine ⟨((Frozen.take s rest).trans (.hostWrite _ a n d hb)).trans (.answer _),
      hostWrite_engineWait_of_busy (s.take rest) a n d hb, ?_⟩
    simpa [h] using hr
  · rw [e]
    refine ⟨((Frozen.take s _).trans (.hostRead _ 4 4)).trans (.answer _), by simp, ?_⟩
    simpa [hb] using hr
  · exact absurd hr (by simp [h])

/-- The engine's turn comes when no input is left to wait for. -/
theorem engineTurn_eq_false_iff (s : State) (hb : s.busy = true) :
    s.engineTurn = false ↔ s.engineWait ≠ 0 ∧ s.inputs ≠ [] := by
  simp [State.engineTurn, hb]

/-- Settles O55: by induction on the number of inputs that the engine waits for; each one taken leaves the registers
and bytes frozen, and then the engine's step completes the command. -/
theorem pendingCommandIsPerformed : Obligations.PendingCommandIsPerformed := by
  intro s hb hr
  induction hw : s.engineWait using Nat.strong_induction_on generalizing s with
  | _ w ih =>
    cases hturn : s.engineTurn with
    | true =>
      obtain ⟨t, e, hidle⟩ := engineStep_completes s
      have hstep : step s = .next t := (step_of_turn s hturn).trans e
      exact ⟨0, s, t, Nat.zero_le w, rfl, .refl s, hturn, e, core_run_succ 0 s t hstep, hidle⟩
    | false =>
      obtain ⟨hwait, hne⟩ := (engineTurn_eq_false_iff s hb).mp hturn
      obtain ⟨hfrozen, hw', hr'⟩ := inputStep_of_busy s hb hne hr
      obtain ⟨k, u, t, hk, hrun, hfrozen', hturn', e, hrun', hidle⟩ :=
        ih _ (by omega) (inputStep s) (hfrozen.busy.trans hb) hr' rfl
      have hsucc (k : Nat) := core_run_succ k s _ (step_of_not_turn s hturn)
      exact ⟨k + 1, u, t, by omega, (hsucc k).trans hrun, hfrozen.trans hfrozen', hturn', e, (hsucc _).trans hrun',
        hidle⟩

end Sys2Proof.Machine
end

section
/-!
The host port: which region holds an address (spec/20_memory.md R67), which transactions are legal (R61), and what
a legal one reads and writes (R62, R63, R65, R68).
-/

namespace Sys2Proof.Machine

open Sys2Proof.Claims

/-! ## The regions -/

/-- The bytes of a transaction lie in one region at most (R67). -/
theorem Region.eq_of_contains {r r' : Region} {a n : Nat} (hn : 0 < n) (h : r.contains a n = true)
    (h' : r'.contains a n = true) : r = r' := by
  rw [Region.contains_iff] at h h'
  by_contra hne
  have := Region.disjoint r r' hne
  omega

/-- Settles O30: each region by its base and size, and no two regions overlap. -/
theorem regionsDisjoint : Obligations.RegionsDisjoint := by
  refine ⟨fun a => ?_, ⟨rfl, rfl⟩, ⟨rfl, rfl⟩, ⟨rfl, rfl⟩, ⟨rfl, rfl⟩, ⟨rfl, rfl⟩, ⟨rfl, rfl⟩, ⟨rfl, rfl⟩,
    fun i => ⟨rfl, rfl, rfl⟩, fun r r' a => Region.eq_of_contains Nat.one_pos⟩
  simp only [Region.contains_iff, Region.base, Region.size, frameBytes, pktBytes]
  refine ⟨?_, ?_, ?_, ?_, ?_, ?_, ?_⟩ <;> omega

/-- The search of the map finds the region that holds the bytes. -/
theorem Region.find_eq_some_iff (r : Region) (a n : Nat) (hn : 0 < n) :
    Region.find a n = some r ↔ r.contains a n = true := by
  refine ⟨Region.contains_of_find a n r, fun h => ?_⟩
  cases hf : Region.find a n with
  | none => exact absurd h (List.find?_eq_none.mp hf r (by cases r <;> decide))
  | some r' => rw [Region.eq_of_contains hn (Region.contains_of_find a n r' hf) h]

theorem Csr.offset_le (r : Csr) : r.offset ≤ 0x50 := by cases r <;> decide

theorem Csr.offset_of_ofOffset {off : Nat} {r : Csr} (h : Csr.ofOffset off = some r) : r.offset = off :=
  beq_iff_eq.mp (List.find?_some (p := fun r : Csr => r.offset == off) h)

/-- The control registers lie at the multiples of 4 up to 0x50 (R23). -/
theorem Csr.ofOffset_isSome_iff (off : Nat) (h : off % 4 = 0) : (Csr.ofOffset off).isSome = true ↔ off ≤ 0x50 := by
  refine ⟨fun hs => ?_, fun hle => ?_⟩
  · obtain ⟨r, hr⟩ := Option.isSome_iff_exists.mp hs
    exact Csr.offset_of_ofOffset hr ▸ r.offset_le
  · exact (by decide : ∀ off ≤ 0x50, off % 4 = 0 → (Csr.ofOffset off).isSome = true) off hle h

theorem Csr.offset_injective {r r' : Csr} (h : r.offset = r'.offset) : r = r' := by
  cases r <;> cases r' <;> trivial

/-- Every region but CSR lies above the control registers. -/
theorem Region.le_base_of_ne_csr (r : Region) (h : r ≠ .csr) : 256 ≤ r.base := by cases r <;> trivial

/-- A region that R61 closes to writes is one that the model holds read-only. -/
theorem Region.readOnly_iff (r : Region) : r.readOnly = true ↔ r = .lutR ∨ r = .lutG ∨ r = .lutB ∨ r = .pkt := by
  cases r <;> decide

/-! ## The targets of a transaction -/

section

variable (a : Word) (n : Nat) (w : Bool)

/-- A transaction in CSR reaches a register only with 4 bytes. -/
theorem target_of_csr (hn : n = 1 ∨ n = 2 ∨ n = 4) (ha : a.toNat % n = 0) (h : Region.csr.contains a.toNat n = true) :
    target a n w = if n = 4 then (Csr.ofOffset a.toNat).map .register else none := by
  rw [target, if_pos ⟨hn, ha⟩, (Region.find_eq_some_iff _ _ _ (by omega)).mpr h]

/-- A transaction in any other region reaches its bytes, or nothing where it is a write that the region refuses. -/
theorem target_of_buffer (r : Region) (hn : n = 1 ∨ n = 2 ∨ n = 4) (ha : a.toNat % n = 0) (hr : r ≠ .csr)
    (h : r.contains a.toNat n = true) : target a n w = if w && r.readOnly then none else some (.bytes r) := by
  rw [target, if_pos ⟨hn, ha⟩, (Region.find_eq_some_iff _ _ _ (by omega)).mpr h]
  cases r <;> trivial

/-- R61's clauses leave a transaction a target. -/
theorem target_isSome_of_legal (h : Legal a n w) : (target a n w).isSome = true := by
  obtain ⟨hn, ha, r, hlo, hhi, hcsr, hro⟩ := h
  have hc : r.contains a.toNat n = true := (Region.contains_iff _ _ _).mpr ⟨hlo, hhi⟩
  by_cases hr : r = .csr
  · subst hr
    obtain ⟨rfl, hle⟩ := hcsr rfl
    rw [target_of_csr a 4 w hn ha hc, if_pos rfl, Option.isSome_map]
    exact (Csr.ofOffset_isSome_iff _ ha).mpr hle
  · rw [← Region.readOnly_iff] at hro
    rw [target_of_buffer a n w r hn ha hr hc]
    cases w with
    | false => rfl
    | true => rw [Bool.true_and, if_neg fun hw => Bool.noConfusion (hro hw)]; rfl

/-- A transaction with a target meets R61's clauses. -/
theorem legal_of_target (t : Target) (h : target a n w = some t) : Legal a n w := by
  obtain ⟨hn, ha⟩ := target_size a n w t h
  refine ⟨hn, ha, ?_⟩
  cases t with
  | register r =>
    obtain ⟨rfl, hoff⟩ := target_register a n w r h
    have hle := r.offset_le
    exact ⟨.csr, Nat.zero_le _, by simp only [Region.base, Region.size]; omega, fun _ => ⟨rfl, by omega⟩, by simp⟩
  | bytes r =>
    obtain ⟨hb, hc, hro⟩ := target_bytes a n w r h
    obtain ⟨hlo, hhi⟩ := (Region.contains_iff _ _ _).mp hc
    refine ⟨r, hlo, hhi, fun hr => ?_, fun hr => ?_⟩
    · subst hr; cases hb
    · rw [← Region.readOnly_iff] at hr
      cases w with
      | false => rfl
      | true => rw [hro rfl] at hr; cases hr

/-- A transaction is legal (R61) exactly when it has a target. -/
theorem legal_iff_target : Legal a n w ↔ (target a n w).isSome = true := by
  refine ⟨target_isSome_of_legal a n w, fun h => ?_⟩
  obtain ⟨t, ht⟩ := Option.isSome_iff_exists.mp h
  exact legal_of_target a n w t ht

variable {a n w}

/-- What is legal to write is legal to read. -/
theorem legal_read_of_legal (h : Legal a n w) : Legal a n false := by
  obtain ⟨hn, ha, r, hlo, hhi, hcsr, -⟩ := h
  exact ⟨hn, ha, r, hlo, hhi, hcsr, fun _ => rfl⟩

/-- A legal transaction above the control registers reaches bytes, of the one region that holds them. -/
theorem target_bytes_of_legal (h : Legal a n w) (ha : 256 ≤ a.toNat) : ∃ r, target a n w = some (.bytes r) := by
  obtain ⟨t, ht⟩ := Option.isSome_iff_exists.mp ((legal_iff_target a n w).mp h)
  cases t with
  | register r =>
    have := (target_register a n w r ht).2
    have := r.offset_le
    omega
  | bytes r => exact ⟨r, ht⟩

/-- A byte target lies above the control registers. -/
theorem le_of_target_bytes {r : Region} (h : target a n w = some (.bytes r)) : 256 ≤ a.toNat := by
  obtain ⟨hb, hc, -⟩ := target_bytes a n w r h
  exact (r.le_base_of_ne_csr (by rintro rfl; cases hb)).trans ((Region.contains_iff _ _ _).mp hc).1

end

/-! ## The answers of the port -/

/-- Settles O20: a transaction is answered by its target, and it is legal exactly when it has one. -/
theorem illegalTransactionsGetErr : Obligations.IllegalTransactionsGetErr := by
  intro s a n d
  simp only [legal_iff_target, Bool.not_eq_true, Option.isSome_eq_false_iff, Option.isNone_iff_eq_none]
  refine ⟨fun h => ?_, fun h => by rw [hostRead, h], fun h => ?_, fun h => by rw [hostWrite, h]⟩ <;>
    obtain ⟨t, ht⟩ := Option.isSome_iff_exists.mp h
  · rw [hostRead, ht]
    cases t <;> rfl
  · rw [hostWrite, ht]
    cases t with
    | register r => cases r <;> rfl
    | bytes r => rfl

theorem hostWrite_of_target_bytes (s : State) (a : Word) (n : Nat) (d : Word) (r : Region)
    (h : target a n true = some (.bytes r)) :
    hostWrite s a n d
      = (if s.busy then { s with wrBusy := true } else s.storeAt a.toNat (bytesOfWord n d), ⟨.ok, none⟩) := by
  rw [hostWrite, h]

theorem hostRead_of_target_bytes (s : State) (a : Word) (n : Nat) (r : Region)
    (h : target a n false = some (.bytes r)) :
    hostRead s a n = (s.draw n, ⟨.ok, some (wordOfBytes ((List.range n).map (s.hostByte r a.toNat)))⟩) := by
  rw [hostRead, h]

/-- A register's address tells which register it is. -/
theorem eq_ofNat_offset_iff {a : Word} {r : Csr} (h : a.toNat = r.offset) (r' : Csr) :
    a = BitVec.ofNat 32 r'.offset ↔ r = r' := by
  have := r'.offset_le
  rw [← BitVec.toNat_inj, h, BitVec.toNat_ofNat, Nat.mod_eq_of_lt (by omega)]
  exact ⟨Csr.offset_injective, congrArg _⟩

/-- Settles O21: by the target; no address but STATUS's and CMD's own reaches them. -/
theorem writesWhileBusy : Obligations.WritesWhileBusy := by
  intro s a n d hb hl
  obtain ⟨t, ht⟩ := Option.isSome_iff_exists.mp ((legal_iff_target a n true).mp hl)
  cases t with
  | register r =>
    have haddr := eq_ofNat_offset_iff (target_register a n true r ht).2
    have hstatus : a = 0x04 ↔ r = .status := haddr .status
    have hcmd : a = 0x08 ↔ r = .cmd := haddr .cmd
    simp only [hstatus, hcmd]
    by_cases hs : r = .status
    · subst hs
      exact hostWrite_of_target_status s a n d ht
    · rw [if_neg hs]
      by_cases hc : r = .cmd
      · subst hc
        rw [hostWrite_of_target_cmd s a n d ht, hb]
        rfl
      · rw [if_neg hc, hostWrite_of_target_register s a n d r ht hs hc, hb]
        rfl
  | bytes r =>
    have ha := le_of_target_bytes ht
    have hne (x : Word) (hx : x.toNat < 256) : a ≠ x := by rintro rfl; omega
    rw [hostWrite_of_target_bytes s a n d r ht, if_pos hb, if_neg (hne 0x04 (by decide)),
      if_neg (hne 0x08 (by decide))]

/-! ## The bytes of a transaction -/

theorem bytesOfWord_getElem (n : Nat) (d : Word) (k : Nat) (h : k < (bytesOfWord n d).length) :
    (bytesOfWord n d)[k] = d.extractLsb' (8 * k) 8 := by simp [bytesOfWord]

/-- The word of some bytes is their sum by powers of 256 (R65, R68). -/
theorem wordOfBytes_map_range (n : Nat) (byte : Nat → Byte) :
    wordOfBytes ((List.range n).map byte) = BitVec.ofNat 32 (∑ k ∈ Finset.range n, (byte k).toNat * 256 ^ k) := by
  rw [wordOfBytes]
  congr 1
  induction n generalizing byte with
  | zero => rfl
  | succ n ih =>
    have htail := ih (byte ∘ Nat.succ)
    rw [List.range_succ_eq_map, List.map_cons, List.map_map, List.foldr_cons, htail, Finset.sum_range_succ',
      Finset.mul_sum, Nat.add_comm]
    simp only [Function.comp_apply, pow_succ, pow_zero, mul_one]
    congr 1
    exact Finset.sum_congr rfl fun k _ => by ring

/-- The low n bytes of a word sum to its value modulo 2^(8n) (R60). -/
theorem sum_bytes_eq_mod (d : Word) (n : Nat) :
    ∑ k ∈ Finset.range n, (d.extractLsb' (8 * k) 8).toNat * 256 ^ k = d.toNat % 2 ^ (8 * n) := by
  induction n with
  | zero => simp [Nat.mod_one]
  | succ n ih =>
    rw [Finset.sum_range_succ, ih, BitVec.extractLsb'_toNat, Nat.shiftRight_eq_div_pow, Nat.mul_succ, pow_add 2 (8 * n),
      Nat.mod_mul, Nat.mul_comm (2 ^ (8 * n)), pow_mul 2 8 n]
    rfl

/-- An idle legal write to FRAME or SRC is one store (R62). -/
theorem hostWrite_of_legal_idle {a : Word} {n : Nat} (h : Legal a n true) (ha : 256 ≤ a.toNat) (s : State) (d : Word)
    (hb : s.busy = false) : hostWrite s a n d = (s.storeAt a.toNat (bytesOfWord n d), ⟨.ok, none⟩) := by
  obtain ⟨r, hr⟩ := target_bytes_of_legal h ha
  rw [hostWrite_of_target_bytes s a n d r hr, hb, if_neg Bool.false_ne_true]

/-- The store of a transaction puts byte k of the data at a + k (R68). -/
theorem holds_storeAt_bytesOfWord (s : State) (a n : Nat) (d : Word) (k : Nat) (h : k < n) :
    Holds (s.storeAt a (bytesOfWord n d)) (a + k) (d.extractLsb' (8 * k) 8) := by
  have hk : k < (bytesOfWord n d).length := by rwa [bytesOfWord_length]
  rw [Holds, State.storeAt_mem, Memory.get?_store_inside _ _ _ _ hk, bytesOfWord_getElem]

/-- Settles O27: by the laws of the store that an idle legal write is. -/
theorem bufferWriteStoresBytes : Obligations.BufferWriteStoresBytes := by
  intro s a n d hb hl ha
  refine ⟨_, hostWrite_of_legal_idle hl ha s d hb, holds_storeAt_bytesOfWord s a.toNat n d, fun x hx => ?_, rfl⟩
  exact Memory.get?_store_outside _ _ _ _ (by rwa [bytesOfWord_length])

theorem State.hostByte_of_idle (s : State) (r : Region) (a k : Nat) (h : s.busy = false) :
    s.hostByte r a k = s.byteAt (a + k) k := by simp [State.hostByte, State.beingWritten, h]

/-- A byte stored while BUSY = 0 is the byte that the host reads there. -/
theorem hostByte_storeAt_bytesOfWord (s : State) (r : Region) (a n : Nat) (d : Word) (hb : s.busy = false) (k : Nat)
    (h : k < n) : (s.storeAt a (bytesOfWord n d)).hostByte r a k = d.extractLsb' (8 * k) 8 := by
  rw [State.hostByte_of_idle (s.storeAt a _) r a k hb,
    State.byteAt_of_get? _ _ k _ (holds_storeAt_bytesOfWord s a n d k h)]

/-- Settles O28: the bytes read are the bytes stored, and their sum is the data's low part. -/
theorem bufferReadAfterWrite : Obligations.BufferReadAfterWrite := by
  intro s a n d hb hl ha
  obtain ⟨r, hr⟩ := target_bytes_of_legal (legal_read_of_legal hl) ha
  rw [hostWrite_of_legal_idle hl ha s d hb]
  refine ⟨(s.storeAt a.toNat (bytesOfWord n d)).draw n, ?_, rfl⟩
  rw [hostRead_of_target_bytes _ a n r hr, wordOfBytes_map_range, ← sum_bytes_eq_mod,
    Finset.sum_congr rfl fun k hk => by rw [hostByte_storeAt_bytesOfWord s r _ n d hb k (Finset.mem_range.mp hk)]]

/-! ## A read of a region that the pending command writes -/

theorem decode_encode (i : Instr) : decode (Sys2Proof.encode i) = .ok i := by cases i <;> rfl

/-- A word decodes to a command exactly when its bits [31:8] are 0 and its OP is the command's (R90, R91). -/
theorem decode_eq_ok_iff (w : Word) (i : Instr) :
    decode w = .ok i ↔ w.extractLsb' 8 24 = 0 ∧ w.extractLsb' 0 8 = i.opcode := by
  constructor
  · intro h
    rw [eq_encode_of_decode w i h]
    cases i <;> decide
  · rintro ⟨hmbz, hop⟩
    have hw : Sys2Proof.encode i = w := by
      rw [Sys2Proof.encode, ← hmbz, ← hop, BitVec.extractLsb'_append_extractLsb'_eq_extractLsb' (by rfl)]
      exact BitVec.extractLsb'_eq_self
    rw [← hw, decode_encode]

/-- The commands that write, and the regions they write, by opcode (R65, R67). -/
theorem writesRegion_iff (i : Instr) (r : Region) :
    writesRegion i r = true ↔ (i.opcode = 1 ∧ (r = .lutR ∨ r = .lutG ∨ r = .lutB))
      ∨ (i.opcode = 2 ∧ r = .frame) ∨ (i.opcode = 3 ∧ r = .pkt) := by
  cases i <;> cases r <;> decide

theorem State.beingWritten_iff (s : State) (r : Region) :
    s.beingWritten r = true ↔ s.busy = true ∧ ∃ i, decode s.pending = .ok i ∧ writesRegion i r = true := by
  rw [State.beingWritten, Bool.and_eq_true]
  cases decode s.pending <;> simp

/-- When R65 leaves the bytes of a read free. -/
theorem State.beingWritten_iff_opcode (s : State) (r : Region) :
    s.beingWritten r = true ↔ s.busy = true ∧ s.pending.extractLsb' 8 24 = 0
      ∧ ((s.pending.extractLsb' 0 8 = 1 ∧ (r = .lutR ∨ r = .lutG ∨ r = .lutB))
        ∨ (s.pending.extractLsb' 0 8 = 2 ∧ r = .frame) ∨ (s.pending.extractLsb' 0 8 = 3 ∧ r = .pkt)) := by
  simp only [State.beingWritten_iff, decode_eq_ok_iff, writesRegion_iff]
  refine and_congr_right fun _ => ⟨?_, ?_⟩
  · rintro ⟨i, ⟨hmbz, hop⟩, hw⟩
    exact ⟨hmbz, hop ▸ hw⟩
  · rintro ⟨hmbz, hw⟩
    obtain ⟨i, hi⟩ : ∃ i : Instr, s.pending.extractLsb' 0 8 = i.opcode := by
      obtain ⟨h, -⟩ | ⟨h, -⟩ | ⟨h, -⟩ := hw
      · exact ⟨.gammaBuild, h⟩
      · exact ⟨.sample, h⟩
      · exact ⟨.encode, h⟩
    exact ⟨i, ⟨hmbz, hi⟩, hi ▸ hw⟩

/-- Settles O29: a legal read of a buffer reaches its bytes, and the free ones are those of R65. -/
theorem bufferReadSumsBytes : Obligations.BufferReadSumsBytes := by
  intro s a n r hl hr hc
  obtain ⟨hn, ha, -⟩ := hl
  have ht : target a n false = some (.bytes r) := target_of_buffer a n false r hn ha hr hc
  refine ⟨s.draw n, s.hostByte r a.toNat, ?_, rfl, fun k _ => ?_⟩
  · rw [hostRead_of_target_bytes s a n r ht, wordOfBytes_map_range]
  · simp only [State.hostByte, State.beingWritten_iff_opcode]

end Sys2Proof.Machine
end

section
/-!
What a command and an input leave unchanged: every byte outside the regions that the command writes
(spec/20_memory.md R67), and, while BUSY = 1, all that the pending command reads (R63, R76).
-/

namespace Sys2Proof.Machine

open Sys2Proof.Claims

/-! ## Commands -/

/-- A store into one region leaves every address outside it alone. -/
theorem Stores.same_of_outside {s t : State} {r : Region} (h : Stores s t r) (a : Nat)
    (ha : r.contains a 1 = false) : Same s t a := by
  obtain ⟨base, bs, hr, hm⟩ := h
  rw [Region.contains_iff] at hr
  rw [Same, hm]
  refine Memory.get?_store_outside _ _ _ _ ?_
  by_contra hin
  exact Bool.false_ne_true (ha.symm.trans ((Region.contains_iff r a 1).mpr (by omega)))

/-- GAMMA_BUILD leaves every address outside the LUT alone (R113). -/
theorem same_gammaBuilt_of_outside (s : State) (a : Nat) (h : ∀ c, (lutRegion c).contains a 1 = false) :
    Same s (s.gammaBuilt.finish .ok) a := by
  refine Memory.get?_store_outside _ _ _ _ ?_
  rw [State.lutBytes_length]
  by_contra hin
  obtain ⟨c, i, hi, rfl⟩ := exists_eq_lutAddr a (by omega) (by omega)
  exact Bool.false_ne_true ((h c).symm.trans (lutRegion_contains c i hi))

/-- Settles O19: command by command; one that fails stores nothing. -/
theorem commandsWriteOnlyTheirRegion : Obligations.CommandsWriteOnlyTheirRegion := by
  intro i s t a h hout
  cases i with
  | nop => cases h; rfl
  | softReset => cases h; rfl
  | gammaBuild =>
    obtain ⟨-, e⟩ | ⟨-, -, e⟩ | ⟨-, -, e⟩ := execGammaBuild_cases s <;> cases e.symm.trans h
    · rfl
    · rfl
    · exact same_gammaBuilt_of_outside s a fun c => hout _ (by fin_cases c <;> rfl)
  | sample =>
    obtain ⟨_, -, e⟩ | ⟨hc, e⟩ := execSample_cases s <;> cases e.symm.trans h
    · rfl
    · exact (stores_sampled s hc).same_of_outside a (hout .frame rfl)
  | encode =>
    obtain ⟨-, e⟩ | ⟨hL, e⟩ := execEncode_cases s <;> cases e.symm.trans h
    · rfl
    · exact (stores_encoded s hL).same_of_outside a (hout .pkt rfl)

/-! ## Inputs -/

/-- While BUSY = 1 an input other than a reset changes the two sticky bits and the model's own fields at most (R63). -/
theorem Frozen.inputStep (s : State) (hb : s.busy = true) (hr : ¬ResetNext s) : Frozen s (inputStep s) := by
  obtain ⟨-, e⟩ | ⟨a, n, rest, -, e⟩ | ⟨a, n, d, rest, -, e⟩ | ⟨rest, -, e⟩ | ⟨rest, hin, -⟩ := inputStep_cases s
  · rw [e]
    exact .refl s
  · rw [e]
    exact ((Frozen.take s rest).trans (.hostRead _ a n)).trans (.answer _)
  · rw [e]
    exact ((Frozen.take s rest).trans (.hostWrite _ a n d hb)).trans (.answer _)
  · rw [e]
    exact ((Frozen.take s _).trans (.hostRead _ 4 4)).trans (.answer _)
  · exact absurd ⟨rest, hin⟩ hr

/-- Settles O15: such a step is the outside world's. -/
theorem inputsFrozenWhileBusy : Obligations.InputsFrozenWhileBusy := by
  intro s t hb hturn hr h
  cases (step_of_not_turn s hturn).symm.trans h
  exact Frozen.inputStep s hb hr

/-- Settles O7: by the kind of the oldest input. -/
theorem stepTakesOldestInput : Obligations.StepTakesOldestInput := by
  intro s hturn
  refine ⟨inputStep s, step_of_not_turn s hturn, fun h => ?_, fun a n rest h => ?_, fun a n d rest h => ?_,
    fun rest h => ?_, fun rest h => ?_, fun _ => rfl, fun _ => rfl⟩ <;> rw [inputStep, h]

end Sys2Proof.Machine
end

section
/-!
The command words and the host script (spec/30_encoding.md): which words are commands (R90 to R94), and what the
transactions of a BYTES statement leave in FRAME and SRC (R97).
-/

namespace Sys2Proof.Machine

open Sys2Proof.Claims

/-! ## Command words -/

/-- Settles O1: command by command. -/
theorem decodeOfEncode : Obligations.DecodeOfEncode := decode_encode

/-- Settles O2: the first five words are the commands' own, and the other four are none of them. -/
theorem decodeOfSpecWords : Obligations.DecodeOfSpecWords :=
  ⟨decode_encode .nop, decode_encode .gammaBuild, decode_encode .sample, decode_encode .encode,
    decode_encode .softReset, rfl, rfl, rfl, rfl⟩

/-- Settles O3: a word that decodes is the command's word, and that word decodes. -/
theorem decodeAcceptsOnlyCommandWords : Obligations.DecodeAcceptsOnlyCommandWords := fun w i =>
  ⟨eq_encode_of_decode w i, fun h => h ▸ decode_encode i⟩

/-- The opcodes of the commands are 0 to 4 (R91). -/
theorem Instr.exists_eq_opcode_iff (op : BitVec 8) : (∃ i : Instr, op = i.opcode) ↔ op.toNat < 5 := by
  constructor
  · rintro ⟨i, rfl⟩
    cases i <;> decide
  · intro h
    have hop : op = BitVec.ofNat 8 op.toNat := by simp
    interval_cases op.toNat
    · exact ⟨.nop, hop⟩
    · exact ⟨.gammaBuild, hop⟩
    · exact ⟨.sample, hop⟩
    · exact ⟨.encode, hop⟩
    · exact ⟨.softReset, hop⟩

/-- A word is rejected exactly when it is no command (R92). -/
theorem decode_error_iff (w : Word) : (∃ e, decode w = .error e) ↔ ¬∃ i, decode w = .ok i := by
  cases decode w <;> simp

/-- Settles O4: a word is a command exactly when its bits [31:8] are 0 and its OP is below 5. -/
theorem decodeRejectsIllegalWords : Obligations.DecodeRejectsIllegalWords := by
  intro w
  rw [decode_error_iff]
  simp only [decode_eq_ok_iff, exists_and_left, Instr.exists_eq_opcode_iff]
  rw [not_and_or, not_lt, or_comm]

/-! ## A run of writes -/

/-- The bytes held in `t` are those of `s` with `bs` written from `base` upwards. -/
def Loaded (s t : State) (base : Nat) (bs : List Byte) : Prop :=
  ∀ x, Memory.get? t.mem x = Memory.get? (Memory.store s.mem base bs) x

theorem Loaded.refl (s : State) (base : Nat) : Loaded s s base [] := fun x => by
  rw [Memory.get?_store_outside s.mem base [] x (Nat.lt_or_ge x base)]

/-- Bytes loaded one after another, the second ones right above the first. -/
theorem Loaded.trans {s t u : State} {base : Nat} {bs cs : List Byte} (h : Loaded s t base bs)
    (h' : Loaded t u (base + bs.length) cs) : Loaded s u base (bs ++ cs) := by
  intro x
  rw [h' x, Memory.get?_store, h x, Memory.get?_store, Memory.get?_store, List.length_append]
  rcases Nat.lt_or_ge x (base + bs.length) with hx | hx
  · rw [if_neg (by omega)]
    by_cases hb : base ≤ x
    · rw [if_pos ⟨hb, hx⟩, if_pos (by omega), List.getElem?_append_left (by omega)]
    · rw [if_neg (by omega), if_neg (by omega)]
  · rw [if_neg (c := base ≤ x ∧ x < base + bs.length) (by omega), List.getElem?_append_right (by omega),
      Nat.sub_sub]
    exact if_congr (by omega) rfl rfl

theorem Loaded.holds {s t : State} {base : Nat} {bs : List Byte} (h : Loaded s t base bs) (k : Nat)
    (hk : k < bs.length) : Holds t (base + k) bs[k] := (h _).trans (Memory.get?_store_inside _ _ _ k hk)

theorem Loaded.same {s t : State} {base : Nat} {bs : List Byte} (h : Loaded s t base bs) (x : Nat)
    (hx : x < base ∨ base + bs.length ≤ x) : Same s t x := (h x).trans (Memory.get?_store_outside _ _ _ x hx)

/-- On an idle block the run that takes the inputs `ins` loads the bytes `bs` from `base` upwards. -/
def Loads (ins : List Input) (base : Nat) (bs : List Byte) : Prop :=
  ∀ s : State, s.busy = false → s.inputs = ins →
    ∃ t, Sys2Proof.core.run ins.length s = .next t ∧ t.inputs = [] ∧ Loaded s t base bs

theorem Loads.nil (base : Nat) : Loads [] base [] := fun s _ hin => ⟨s, rfl, hin, .refl s base⟩

/-- The step of an idle block that takes a legal write into a buffer loads the bytes of its data (R62). -/
theorem step_loads_write {s : State} {a : Word} {n : Nat} {d : Word} {rest : List Input} (hb : s.busy = false)
    (hin : s.inputs = .write a n d :: rest) (hl : Legal a n true) (ha : 256 ≤ a.toNat) :
    ∃ t, step s = .next t ∧ t.busy = false ∧ t.inputs = rest ∧ Loaded s t a.toNat (bytesOfWord n d) := by
  have hturn : s.engineTurn = false := by rw [State.engineTurn, hb, Bool.false_and]
  refine ⟨State.answer ((s.take rest).storeAt a.toNat (bytesOfWord n d), ⟨.ok, none⟩), ?_, hb, rfl, fun _ => rfl⟩
  rw [step_of_not_turn s hturn, inputStep, hin]
  simp only [hostWrite_of_legal_idle hl ha (s.take rest) d hb]

/-- A legal write of n bytes, and after it inputs that load the bytes above. -/
theorem Loads.write {a : Word} {n : Nat} {d : Word} {ins : List Input} {bs : List Byte} (hl : Legal a n true)
    (ha : 256 ≤ a.toNat) (h : Loads ins (a.toNat + n) bs) :
    Loads (.write a n d :: ins) a.toNat (bytesOfWord n d ++ bs) := by
  intro s hb hin
  obtain ⟨s', hstep, hb', hin', hfirst⟩ := step_loads_write hb hin hl ha
  obtain ⟨t, hrun, hnil, hrest⟩ := h s' hb' hin'
  refine ⟨t, (core_run_succ ins.length s s' hstep).trans hrun, hnil, hfirst.trans ?_⟩
  rwa [bytesOfWord_length]

/-! ## The transactions of BYTES -/

theorem bytesOfWord_setWidth (b : Byte) : bytesOfWord 1 (b.setWidth 32) = [b] := by
  have := b.isLt
  simp only [bytesOfWord, List.range, List.range.loop, List.map, List.cons.injEq, and_true, ← BitVec.toNat_inj,
    BitVec.extractLsb'_toNat, BitVec.toNat_setWidth, Nat.shiftRight_eq_div_pow]
  omega

/-- The little-endian word of four bytes stores them in their order (R68). -/
theorem bytesOfWord_wordOfBytes (b0 b1 b2 b3 : Byte) :
    bytesOfWord 4 (wordOfBytes [b0, b1, b2, b3]) = [b0, b1, b2, b3] := by
  have := b0.isLt
  have := b1.isLt
  have := b2.isLt
  have := b3.isLt
  simp only [bytesOfWord, wordOfBytes, List.foldr, List.range, List.range.loop, List.map, List.cons.injEq, and_true,
    ← BitVec.toNat_inj, BitVec.extractLsb'_toNat, BitVec.toNat_ofNat, Nat.shiftRight_eq_div_pow]
  omega

section

variable {r : Region} (hr : r = .frame ∨ r = .src)
include hr

/-- FRAME and SRC lie above the control registers and within the 32-bit addresses (R67). -/
theorem buffer_bounds : 256 ≤ r.base ∧ r.base + r.size < 2 ^ 32 := by
  have := Config.srcBytes_bounds
  obtain rfl | rfl := hr <;> simp only [Region.base, Region.size, frameBytes] <;> omega

/-- An aligned write of a size of R61 inside FRAME or SRC loads its bytes there. -/
theorem Loads.write_buffer {base n : Nat} {d : Word} {ins : List Input} {bs : List Byte}
    (hn : n = 1 ∨ n = 2 ∨ n = 4) (ha : base % n = 0) (hlo : r.base ≤ base) (hhi : base + n ≤ r.base + r.size)
    (h : Loads ins (base + n) bs) :
    Loads (.write (BitVec.ofNat 32 base) n d :: ins) base (bytesOfWord n d ++ bs) := by
  obtain ⟨hmin, hmax⟩ := buffer_bounds hr
  have haddr : (BitVec.ofNat 32 base).toNat = base := by rw [BitVec.toNat_ofNat, Nat.mod_eq_of_lt (by omega)]
  have hl : Legal (BitVec.ofNat 32 base) n true := by
    rw [Legal, haddr]
    exact ⟨hn, ha, r, hlo, hhi, by rintro rfl; simp at hr, by rintro (rfl | rfl | rfl | rfl) <;> simp at hr⟩
  have := Loads.write (d := d) hl (by omega) (haddr.symm ▸ h)
  rwa [haddr] at this

theorem loads_byteWrites (base : Nat) (bs : List Byte) (hlo : r.base ≤ base)
    (hhi : base + bs.length ≤ r.base + r.size) : Loads (byteWrites base bs) base bs := by
  induction bs generalizing base with
  | nil => exact .nil base
  | cons b bs ih =>
    rw [List.length_cons] at hhi
    have := Loads.write_buffer hr (d := b.setWidth 32) (.inl rfl) (Nat.mod_one base) hlo (by omega)
      (ih (base + 1) (by omega) (by omega))
    rwa [bytesOfWord_setWidth] at this

theorem loads_wordWrites (base : Nat) (bs : List Byte) (ha : base % 4 = 0) (hlo : r.base ≤ base)
    (hhi : base + bs.length ≤ r.base + r.size) : Loads (wordWrites base bs) base bs := by
  induction base, bs using wordWrites.induct with
  | case1 base b0 b1 b2 b3 bs ih =>
    simp only [List.length_cons] at hhi
    have := Loads.write_buffer hr (d := wordOfBytes [b0, b1, b2, b3]) (.inr (.inr rfl)) ha hlo (by omega)
      (ih (by omega) (by omega) (by omega))
    rwa [bytesOfWord_wordOfBytes] at this
  | case2 base bs hshort =>
    rw [wordWrites.eq_2 base bs hshort]
    exact loads_byteWrites hr base bs hlo hhi

end

/-- FRAME and SRC begin at multiples of 4, so an offset and its address are aligned alike (R67). -/
theorem loads_bytes_inputs {r : Region} (hr : r = .frame ∨ r = .src) (off : Nat) (bs : List Byte)
    (hfit : off + bs.length ≤ r.size) : Loads (Stmt.bytes r off bs).inputs (r.base + off) bs := by
  have hbase : r.base % 4 = 0 := by obtain rfl | rfl := hr <;> rfl
  rw [Stmt.inputs]
  split
  · exact loads_wordWrites hr _ bs (by omega) (by omega) (by omega)
  · exact loads_byteWrites hr _ bs (by omega) (by omega)

/-- Settles O31: write by write, each one the store of the next bytes. -/
theorem bytesStatementLoadsBuffer : Obligations.BytesStatementLoadsBuffer := by
  intro s r off bs hb hr hfit hin
  obtain ⟨t, hrun, hnil, hload⟩ := loads_bytes_inputs hr off bs hfit s hb hin
  exact ⟨t, hin ▸ hrun, hnil, hload.holds, hload.same⟩

end Sys2Proof.Machine
end

section
/-!
The gamma function (spec/40_gamma.md R114, R115): the integer comparison of the search is the comparison of n - 1/2 with
the real power, so the search answers the rounded power; the laws and the closed forms follow from the comparison.
-/

namespace Sys2Proof.Claims

open Sys2Proof.Machine

/-! ## The legal exponents -/

theorem sign32_mul_pos_iff (b : Word) (x : ℚ) (hx : 0 ≤ x) : 0 < sign32 b * x ↔ b.getLsbD 31 = false ∧ x ≠ 0 := by
  rw [sign32]
  cases b.getLsbD 31
  · simp [lt_iff_le_and_ne, hx, eq_comm]
  · simp [hx]

/-- The model's test of an exponent is R112's. -/
theorem gammaLegal_iff_gammaGood (b : Word) : gammaLegal b = true ↔ GammaGood b := by
  rw [gammaLegal_iff, GammaGood, isFinite_iff, value32_eq_sign_mul_magnitude, sign32_mul_pos_iff b _ (by positivity)]
  simp

theorem value32_of_gammaGood (b : Word) (h : GammaGood b) : value32 b = f32Magnitude b / f32Unit := by
  obtain ⟨-, hsign, -⟩ := (gammaLegal_iff b).mp ((gammaLegal_iff_gammaGood b).mpr h)
  rw [value32_eq_sign_mul_magnitude, sign32, hsign, if_neg Bool.false_ne_true, one_mul, f32Unit_cast]

theorem gammaNum_mul_gcd (b : Word) : gammaNum b * Nat.gcd (f32Magnitude b) f32Unit = f32Magnitude b :=
  Nat.div_mul_cancel (Nat.gcd_dvd_left _ _)

theorem gammaDen_mul_gcd (b : Word) : gammaDen b * Nat.gcd (f32Magnitude b) f32Unit = f32Unit :=
  Nat.div_mul_cancel (Nat.gcd_dvd_right _ _)

theorem gammaDen_ne_zero (b : Word) : gammaDen b ≠ 0 :=
  left_ne_zero_of_mul ((gammaDen_mul_gcd b).trans_ne f32Unit_pos.ne')

theorem gammaNum_ne_zero (b : Word) (h : GammaGood b) : gammaNum b ≠ 0 := by
  obtain ⟨-, -, hmag⟩ := (gammaLegal_iff b).mp ((gammaLegal_iff_gammaGood b).mpr h)
  exact left_ne_zero_of_mul ((gammaNum_mul_gcd b).trans_ne hmag)

/-- The fraction in lowest terms is the exact value of the pattern (R11). -/
theorem value32_eq_gammaNum_div_gammaDen (b : Word) (h : GammaGood b) : value32 b = gammaNum b / gammaDen b := by
  have hgcd : (Nat.gcd (f32Magnitude b) f32Unit : ℚ) ≠ 0 := by
    exact_mod_cast (Nat.gcd_pos_of_pos_right _ f32Unit_pos).ne'
  rw [value32_of_gammaGood b h, ← mul_div_mul_right (gammaNum b : ℚ) _ hgcd, ← Nat.cast_mul, ← Nat.cast_mul,
    gammaNum_mul_gcd, gammaDen_mul_gcd]

/-! ## The threshold test and the real power -/

/-- The search answers `r`, clamped, where the threshold test holds up to `r`. -/
theorem gammaRound_eq_clampZ (a q i : ℕ) (r : ℤ)
    (h : ∀ n : ℕ, n ≠ 0 → (gammaReaches a q i n = true ↔ (n : ℤ) ≤ r)) :
    (gammaRound a q i : ℤ) = clampZ r := by
  obtain ⟨hle, hreached, hmax⟩ := gammaRound_spec a q i
  have hlow : gammaRound a q i = 0 ∨ (gammaRound a q i : ℤ) ≤ r := by
    by_cases h0 : gammaRound a q i = 0
    · exact .inl h0
    · exact .inr ((h _ h0).mp (hreached.resolve_left h0))
  have hhigh : gammaRound a q i = 255 ∨ r < gammaRound a q i + 1 := by
    by_cases h255 : gammaRound a q i = 255
    · exact .inl h255
    · have := hmax (gammaRound a q i + 1) (Nat.lt_succ_self _) (by omega)
      rw [Bool.eq_false_iff, Ne, h _ (Nat.succ_ne_zero _), not_le] at this
      exact .inr (by exact_mod_cast this)
  unfold clampZ
  omega

/-- Both sides of n - 1/2 ≤ 255 × (i/255)^(a/q) are raised to the power q and cleared of denominators. -/
theorem gammaReaches_iff_rpow (a q i n : ℕ) (hq : q ≠ 0) (hn : n ≠ 0) :
    gammaReaches a q i n = true ↔ (n : ℝ) - 1 / 2 ≤ 255 * ((i : ℝ) / 255) ^ ((a : ℝ) / q) := by
  have hpow : (((i : ℝ) / 255) ^ ((a : ℝ) / q)) ^ q = (i : ℝ) ^ a / 255 ^ a := by
    rw [← Real.rpow_mul_natCast (by positivity), div_mul_cancel₀ _ (by exact_mod_cast hq), Real.rpow_natCast, div_pow]
  have hodd : ((2 * n - 1 : ℕ) : ℝ) = 2 * n - 1 := by
    rw [Nat.cast_sub (by omega)]
    push_cast
    rfl
  calc gammaReaches a q i n = true
      ↔ ((2 * n - 1 : ℕ) : ℝ) ^ q * 255 ^ a ≤ (i : ℝ) ^ a * 510 ^ q := by
        rw [gammaReaches_iff]
        exact_mod_cast Iff.rfl
    _ ↔ (((2 * n - 1 : ℕ) : ℝ) / 510) ^ q ≤ (((i : ℝ) / 255) ^ ((a : ℝ) / q)) ^ q := by
        rw [hpow, div_pow, div_le_div_iff₀ (by positivity) (by positivity)]
    _ ↔ ((2 * n - 1 : ℕ) : ℝ) / 510 ≤ ((i : ℝ) / 255) ^ ((a : ℝ) / q) :=
        pow_le_pow_iff_left₀ (by positivity) (by positivity) hq
    _ ↔ (n : ℝ) - 1 / 2 ≤ 255 * ((i : ℝ) / 255) ^ ((a : ℝ) / q) := by
        rw [hodd, div_le_iff₀ (by norm_num)]
        constructor <;> intro h <;> linarith

/-- Settles O40: the threshold test holds of n exactly when n is at most the rounded power. -/
theorem gammaRefIsRoundedRealPower : Obligations.GammaRefIsRoundedRealPower := by
  intro b i h _
  refine gammaRound_eq_clampZ _ _ i _ fun n hn => ?_
  rw [gammaReaches_iff_rpow _ _ i n (gammaDen_ne_zero b) hn, Int.le_floor, value32_eq_gammaNum_div_gammaDen b h]
  push_cast
  exact sub_le_iff_le_add

/-! ## The laws -/

theorem gammaReaches_eq_false_iff (a q i n : ℕ) :
    gammaReaches a q i n = false ↔ i ^ a * 510 ^ q < (2 * n - 1) ^ q * 255 ^ a := by
  rw [Bool.eq_false_iff, Ne, gammaReaches_iff, not_le]

theorem gammaRound_input_zero (a q : ℕ) (ha : a ≠ 0) : gammaRound a q 0 = 0 :=
  gammaRound_eq a q 0 0 (by decide) (.inl rfl) (.inr (by simp [gammaReaches_eq_false_iff, ha]))

theorem gammaRound_input_255 (a q : ℕ) : gammaRound a q 255 = 255 := by
  refine gammaRound_eq a q 255 255 le_rfl (.inr ?_) (.inl rfl)
  rw [gammaReaches_iff, mul_comm]
  exact Nat.mul_le_mul_left _ (Nat.pow_le_pow_left (by decide) q)

theorem gammaRound_le (a q i : ℕ) : gammaRound a q i ≤ 255 := (gammaRound_spec a q i).1

/-- A greater input reaches the answer of a smaller one, so its own answer is no smaller. -/
theorem gammaRound_mono (a q : ℕ) {i j : ℕ} (hij : i ≤ j) : gammaRound a q i ≤ gammaRound a q j := by
  obtain ⟨hle, hreached, -⟩ := gammaRound_spec a q i
  obtain ⟨-, -, hmax⟩ := gammaRound_spec a q j
  by_contra! hlt
  have hj := gammaReaches_mono a q _ hij (hreached.resolve_left (by omega))
  exact Bool.false_ne_true ((hmax _ hlt hle).symm.trans hj)

/-- Settles O41: from the threshold test, for the exponent as a fraction above 0. -/
theorem gammaRefLaws : Obligations.GammaRefLaws := fun b h =>
  ⟨gammaRound_input_zero _ _ (gammaNum_ne_zero b h), gammaRound_input_255 _ _, gammaRound_le _ _,
    fun _ _ hij _ => gammaRound_mono _ _ hij⟩

/-! ## The closed forms -/

theorem gammaRound_exponent_one (i : ℕ) (hi : i ≤ 255) : gammaRound 1 1 i = i := by
  refine gammaRound_eq 1 1 i i hi (.inr ?_) (.inr ?_)
  · simp only [gammaReaches_iff, pow_one]; omega
  · simp only [gammaReaches_eq_false_iff, pow_one]; omega

theorem gammaRound_exponent_two (i : ℕ) (hi : i ≤ 255) : gammaRound 2 1 i = (i ^ 2 + 127) / 255 := by
  have hsq : i ^ 2 ≤ 255 ^ 2 := Nat.pow_le_pow_left hi 2
  refine gammaRound_eq 2 1 i _ (by omega) (.inr ?_) (.inr ?_)
  · simp only [gammaReaches_iff, pow_one]; omega
  · simp only [gammaReaches_eq_false_iff, pow_one]; omega

/-- For the square root the test of n ≥ 1 is 2n - 1 ≤ isqrt(1020 i). -/
theorem gammaReaches_half_iff (i n : ℕ) : gammaReaches 1 2 i n = true ↔ 2 * n - 1 ≤ Nat.sqrt (1020 * i) := by
  rw [gammaReaches_iff, Nat.le_sqrt', pow_one, pow_one]
  omega

theorem gammaRound_exponent_half (i : ℕ) (hi : i ≤ 255) : gammaRound 1 2 i = (Nat.sqrt (1020 * i) + 1) / 2 := by
  have hsqrt : Nat.sqrt (1020 * i) ≤ Nat.sqrt (1020 * 255) := Nat.sqrt_le_sqrt (Nat.mul_le_mul_left _ hi)
  have hmax : Nat.sqrt (1020 * 255) = 510 := Nat.sqrt_eq' 510
  refine gammaRound_eq 1 2 i _ (by omega) (.inr ?_) (.inr ?_)
  · rw [gammaReaches_half_iff]; omega
  · rw [Bool.eq_false_iff, Ne, gammaReaches_half_iff]; omega

/-- 0x3F800000 is 1/1, 0x40000000 is 2/1 and 0x3F000000 is 1/2. -/
theorem gammaRef_eq_gammaRound (i : ℕ) : gammaRef 0x3F800000 i = gammaRound 1 1 i
    ∧ gammaRef 0x40000000 i = gammaRound 2 1 i ∧ gammaRef 0x3F000000 i = gammaRound 1 2 i := ⟨rfl, rfl, rfl⟩

/-- Settles O42: each pattern's fraction, then the closed form of that fraction. -/
theorem gammaRefClosedForms : Obligations.GammaRefClosedForms := by
  intro i hi
  obtain ⟨hone, htwo, hhalf⟩ := gammaRef_eq_gammaRound i
  exact ⟨hone.trans (gammaRound_exponent_one i hi), htwo.trans (gammaRound_exponent_two i hi),
    hhalf.trans (gammaRound_exponent_half i hi)⟩

end Sys2Proof.Claims
end

section
/-!
GAMMA_BUILD (spec/40_gamma.md R110 to R113): which exponents it accepts, what it writes, and what ends the life of the
table it has built (R111).
-/

namespace Sys2Proof.Machine

open Sys2Proof.Claims

/-! ## The checks -/

theorem State.gamma_eq_gammaReg (s : State) (c : Fin 3) : s.gamma c = gammaReg s c := by fin_cases c <;> rfl

/-- GAMMA_BUILD's test of the three registers is R112's, channel by channel. -/
theorem gammaLegal_all_iff (s : State) :
    (gammaLegal s.gammaR && gammaLegal s.gammaG && gammaLegal s.gammaB) = true ↔ ∀ c, GammaGood (gammaReg s c) := by
  simp [Fin.forall_fin_succ, gammaLegal_iff_gammaGood, gammaReg, and_assoc]

theorem execGammaBuild_of_good (s : State) (hv : s.lutValid = false) (h : ∀ c, GammaGood (gammaReg s c)) :
    execGammaBuild s = .next (s.gammaBuilt.finish .ok) := by
  obtain ⟨hv', -⟩ | ⟨-, hbad, -⟩ | ⟨-, -, e⟩ := execGammaBuild_cases s
  · exact absurd (hv.symm.trans hv') Bool.false_ne_true
  · exact absurd (hbad.symm.trans ((gammaLegal_all_iff s).mpr h)) Bool.false_ne_true
  · exact e

theorem execGammaBuild_of_bad (s : State) (hv : s.lutValid = false) (h : ¬∀ c, GammaGood (gammaReg s c)) :
    execGammaBuild s = .next (s.finish .configError) := by
  obtain ⟨hv', -⟩ | ⟨-, -, e⟩ | ⟨-, hgood, -⟩ := execGammaBuild_cases s
  · exact absurd (hv.symm.trans hv') Bool.false_ne_true
  · exact e
  · exact absurd ((gammaLegal_all_iff s).mp hgood) h

/-- Settles O38: a channel whose exponent is not finite or not above 0 has no legal exponent. -/
theorem gammaBuildConfigError : Obligations.GammaBuildConfigError := by
  rintro s hv ⟨c, hc⟩
  refine execGammaBuild_of_bad s hv fun hgood => ?_
  obtain ⟨hfin, hpos⟩ := hgood c
  exact hc.elim (absurd hfin) (not_le.mpr hpos)

/-! ## The table -/

/-- Entry 256 × c + i of the 768 is GammaRef of channel c's exponent at i. -/
theorem State.lutBytes_getElem (s : State) (c : Fin 3) (i : Nat) (hi : i < 256)
    (h : 256 * c.val + i < s.lutBytes.length) :
    s.lutBytes[256 * c.val + i] = BitVec.ofNat 8 (gammaRef (gammaReg s c) i) := by
  have hc : Fin.ofNat 3 ((256 * c.val + i) / 256) = c := by ext; simp only [Fin.val_ofNat]; omega
  have hk : (256 * c.val + i) % 256 = i := by omega
  simp only [State.lutBytes, List.getElem_map, List.getElem_range, hc, hk, State.gamma_eq_gammaReg]

theorem holds_gammaBuilt (s : State) (c : Fin 3) (i : Nat) (hi : i < 256) :
    Holds (s.gammaBuilt.finish .ok) (lutAddr c i) (BitVec.ofNat 8 (gammaRef (gammaReg s c) i)) := by
  have hk : 256 * c.val + i < s.lutBytes.length := by rw [State.lutBytes_length]; omega
  rw [lutAddr_eq_add, ← s.lutBytes_getElem c i hi hk]
  exact Memory.get?_store_inside _ _ _ _ hk

theorem same_gammaBuilt_of_lt_or_gt (s : State) (a : Nat) (h : a < lutAddr 0 0 ∨ lutAddr 2 255 < a) :
    Same s (s.gammaBuilt.finish .ok) a := by
  refine Memory.get?_store_outside _ _ _ _ ?_
  rw [lutAddr_eq_add 2] at h
  rw [State.lutBytes_length]
  exact h

/-- Settles O39: the state after an accepted build is known in full. -/
theorem gammaBuildWritesLut : Obligations.GammaBuildWritesLut := fun s hv hgood =>
  ⟨s.gammaBuilt.finish .ok, execGammaBuild_of_good s hv hgood, holds_gammaBuilt s, same_gammaBuilt_of_lt_or_gt s, rfl⟩

/-! ## The end of the table -/

/-- No command but SOFT_RESET clears LUT_VALID. -/
theorem exec_keeps_lutValid (i : Instr) (s t : State) (h : exec i s = .next t) (hi : i ≠ .softReset)
    (hs : s.lutValid = true) : t.lutValid = true := by
  cases i with
  | nop => cases h; exact hs
  | gammaBuild => cases (execGammaBuild_of_locked s hs).symm.trans h; exact hs
  | sample =>
    obtain ⟨_, -, e⟩ | ⟨-, e⟩ := execSample_cases s <;> cases e.symm.trans h
    · exact hs
    · rwa [State.finish_lutValid, State.sampled_lutValid]
  | encode => obtain ⟨-, e⟩ | ⟨-, e⟩ := execEncode_cases s <;> cases e.symm.trans h <;> exact hs
  | softReset => exact absurd rfl hi

theorem softReset_of_lutValid_falls (s t : State) (h : engineStep s = .next t) (hs : s.lutValid = true)
    (ht : t.lutValid = false) : s.pending = Sys2Proof.encode .softReset := by
  cases hd : decode s.pending with
  | error e =>
    cases (engineStep_of_reject s e hd).symm.trans h
    exact absurd (ht.symm.trans hs) Bool.false_ne_true
  | ok i =>
    have hi : i = .softReset := by
      by_contra hne
      have hkept := exec_keeps_lutValid i s t ((engineStep_of_decode s i hd).symm.trans h) hne hs
      exact Bool.false_ne_true (ht.symm.trans hkept)
    rw [eq_encode_of_decode _ _ hd, hi]

/-- Settles O14: of the engine's steps only SOFT_RESET, and of the outside world's only the reset input. -/
theorem lutValidFallsOnlyByReset : Obligations.LutValidFallsOnlyByReset := by
  intro s t h hs ht
  obtain ⟨hturn, e⟩ | ⟨hturn, rfl⟩ := step_next_cases s t h
  · exact .inl ⟨hturn, softReset_of_lutValid_falls s t e hs ht⟩
  · obtain ⟨rest, hin, -⟩ | ⟨hv, -⟩ := inputStep_effect s
    · exact .inr ⟨hturn, rest, hin⟩
    · exact absurd (ht.symm.trans (hv.trans hs)) Bool.false_ne_true

end Sys2Proof.Machine
end

section
/-!
The arithmetic of SAMPLE (spec/41_sample.md R133, R136, R139, R140): the model's integer tests and divisions against
the exact rationals of the spec.
-/

namespace Sys2Proof.Claims

open Sys2Proof.Machine

/-! ## The multiply stages -/

/-- Truncation toward zero of a fraction is the integer division that rounds toward zero (R12). -/
theorem truncQ_intCast_div_natCast (n : ℤ) (d : ℕ) : truncQ ((n : ℚ) / d) = n.tdiv d := by
  rw [truncQ]
  rcases le_or_gt 0 n with hn | hn
  · rw [if_pos (by positivity), Rat.floor_intCast_div_natCast, Int.tdiv_eq_ediv_of_nonneg hn]
  · obtain rfl | hd := Nat.eq_zero_or_pos d
    · simp
    · have hneg : (n : ℚ) / d < 0 := div_neg_of_neg_of_pos (by exact_mod_cast hn) (by exact_mod_cast hd)
      rw [if_neg hneg.not_ge, Rat.ceil_intCast_div_natCast, ← Int.tdiv_eq_ediv_of_nonneg (by omega), Int.neg_tdiv,
        neg_neg]

/-- The model's product of a byte and a finite pattern is the exact product, truncated. -/
theorem truncMul_f32 (v : ℕ) (b : Word) (h : Finite32 b) : truncMul v (f32 b) = truncQ (v * value32 b) := by
  have hprod : (v : ℚ) * value32 b = ((v * (f32 b).num : ℤ) : ℚ) / f32Unit := by
    rw [← num_f32_div_eq_value32 b h, f32Unit_cast, ← mul_div_assoc]
    push_cast
    rfl
  rw [hprod, truncQ_intCast_div_natCast, truncMul]

theorem clampByte_truncMul_f32 (v : ℕ) (b : Word) (h : Finite32 b) :
    (clampByte (truncMul v (f32 b)) : ℤ) = stage v b := by
  rw [clampByte_cast, truncMul_f32 v b h, stage, clampZ, Int.cast_natCast]

/-- Stage 1 of the model is one multiply stage of the spec (R139). -/
theorem stage1_eq_stage (v : ℕ) (b : Word) (h : Finite32 b) : (stage1 v b : ℤ) = stage v b :=
  clampByte_truncMul_f32 v b h

/-- Stage 2 of the model is one multiply stage of the spec (R140). -/
theorem stage2_eq_stage (v : ℕ) (b : Word) (h : Finite32 b) : (stage2 v b : ℤ) = stage v b :=
  clampByte_truncMul_f32 v b h

/-- Where the factor lies in [0, 1] the clamp never changes the value (R140). -/
theorem stage_eq_floor (v : ℕ) (b : Word) (hv : v ≤ 255) (h0 : 0 ≤ value32 b) (h1 : value32 b ≤ 1) :
    stage v b = ⌊(v : ℚ) * value32 b⌋ := by
  have hlow : 0 ≤ (v : ℚ) * value32 b := by positivity
  have hhigh : (v : ℚ) * value32 b ≤ 255 :=
    (mul_le_of_le_one_right (by positivity) h1).trans (by exact_mod_cast hv)
  have hfloor : ⌊(v : ℚ) * value32 b⌋ ≤ 255 := Int.floor_le_iff.mpr (hhigh.trans_lt (by norm_num))
  rw [stage, Int.cast_natCast, truncQ, if_pos hlow, clampZ, max_eq_right (Int.floor_nonneg.mpr hlow),
    min_eq_right hfloor]

/-- Settles O37: both stages are the one stage of the spec, which is a floor for a factor in [0, 1]. -/
theorem stagesAreExactProducts : Obligations.StagesAreExactProducts := fun v b hv h =>
  ⟨stage1_eq_stage v b h, stage2_eq_stage v b h,
    fun h0 h1 => (stage2_eq_stage v b h).trans (stage_eq_floor v b hv h0 h1)⟩

/-- The pattern of 1.0 (R11). -/
theorem value32_pattern_one : value32 0x3F800000 = 1 := by simp [value32]

/-- A stage with the factor 1.0 keeps the byte (R146). -/
theorem stage_pattern_one (v : ℕ) (hv : v ≤ 255) : stage v 0x3F800000 = v := by
  rw [stage_eq_floor v _ hv (by norm_num [value32_pattern_one]) value32_pattern_one.le, value32_pattern_one, mul_one,
    Int.floor_natCast]

/-! ## The aspect gate -/

/-- Settles O44: the two ratios differ by |W × h − w × H| over H × h. -/
theorem aspectGateIsExactRatioTest : Obligations.AspectGateIsExactRatioTest := by
  intro W H w h hH hh
  have hH' : (0 : ℚ) < H := by exact_mod_cast hH
  have hh' : (0 : ℚ) < h := by exact_mod_cast hh
  have hdiff : |(W : ℚ) / H - w / h| = |(W : ℚ) * h - w * H| / (H * h) := by
    rw [div_sub_div _ _ hH'.ne' hh'.ne', abs_div, abs_of_pos (mul_pos hH' hh'), mul_comm (H : ℚ) w]
  have hcast : ((((W * h : ℤ) - (w * H : ℤ)).natAbs : ℕ) : ℚ) = |(W : ℚ) * h - w * H| := by
    rw [Nat.cast_natAbs]
    push_cast
    rfl
  calc aspectRejected W H w h = true
      ↔ ((H * h : ℕ) : ℚ) < (50 * ((W * h : ℤ) - (w * H : ℤ)).natAbs : ℕ) := by
        rw [aspectRejected, decide_eq_true_eq, Nat.cast_lt]
    _ ↔ (H : ℚ) * h < 50 * |(W : ℚ) * h - w * H| := by rw [Nat.cast_mul, Nat.cast_mul, hcast]; rfl
    _ ↔ 1 / 50 < |(W : ℚ) / H - w / h| := by
        rw [hdiff, div_lt_div_iff₀ (by norm_num) (mul_pos hH' hh'), one_mul, mul_comm 50]

/-! ## The sampled position -/

/-- The sampled column lies in the source (R137). -/
theorem samplePos_lt (W w x : ℕ) (hW : 0 < W) (hx : x < w) : samplePos W w x < W :=
  Nat.div_lt_of_lt_mul (Nat.mul_lt_mul_of_pos_right (by omega) hW)

/-- The sampled column is the greatest integer at most the cell's centre (R136). -/
theorem samplePos_eq_floor (W w x : ℕ) : samplePos W w x = ⌊(2 * x + 1 : ℚ) * W / (2 * w)⌋₊ := by
  rw [samplePos, ← Nat.floor_div_eq_div (K := ℚ)]
  push_cast
  rfl

/-- In a source k times as wide as the matrix, the column is k × x and half of k (R137). -/
theorem samplePos_mul (k w x : ℕ) (hw : 0 < w) : samplePos (k * w) w x = k * x + k / 2 := by
  rw [samplePos, ← mul_assoc, Nat.mul_div_mul_right _ _ hw, show (2 * x + 1) * k = k + 2 * (k * x) by ring,
    Nat.add_mul_div_left _ _ two_pos, add_comm]

/-- Settles O47: the column is the floor of the cell's centre; equal sizes are the ratio 1. -/
theorem samplePositionHoldsCellCentre : Obligations.SamplePositionHoldsCellCentre := by
  intro W w x hW hx
  have hw : 0 < w := by omega
  refine ⟨Nat.le_sub_one_of_lt (samplePos_lt W w x hW hx), ?_, ?_, ?_, ?_⟩
  · rw [samplePos_eq_floor]; exact Nat.floor_le (by positivity)
  · rw [samplePos_eq_floor]; exact Nat.lt_floor_add_one _
  · rintro rfl
    simpa using samplePos_mul 1 W x hw
  · rintro k rfl
    exact samplePos_mul k w x hw

end Sys2Proof.Claims
end

section
/-!
SAMPLE (spec/41_sample.md R130 to R146): which check fails first, what an accepted command writes, and what follows for
the channels, for the identity settings and for the ENCODE that comes next.
-/

namespace Sys2Proof.Machine

open Sys2Proof.Claims

/-! ## The checks -/

/-- The model's brightness check is the spec's (R131). -/
theorem brightnessIllegal_iff (b : Word) :
    brightnessIllegal b = true ↔ ¬Finite32 b ∨ value32 b < 0 ∨ 1 < value32 b := by
  by_cases h : Finite32 b
  · have hpos : (0 : ℚ) < 2 ^ 149 := by positivity
    rw [brightnessIllegal_of_finite b _ (f32_eq_finite_num b h), ← num_f32_div_eq_value32 b h, div_lt_iff₀ hpos,
      lt_div_iff₀ hpos, zero_mul, one_mul, ← f32Unit_cast, Int.cast_lt_zero]
    simp only [h, not_true, false_or]
    exact_mod_cast Iff.rfl
  · simp [h, brightnessIllegal_of_not_isFinite b ((not_finite32_iff b).mp h)]

/-- The model's three configuration checks are the spec's (R131). -/
theorem sampleConfigBad_iff (s : State) : SampleConfigBad s ↔
    (s.opW = 0 ∨ s.opH = 0 ∨ s.opw = 0 ∨ s.oph = 0)
      ∨ ¬(isFinite s.corrR ∧ isFinite s.corrG ∧ isFinite s.corrB)
      ∨ brightnessIllegal s.brightness = true := by
  simp only [SampleConfigBad, brightnessIllegal_iff, isFinite_iff, State.opW, State.opH, State.opw, State.oph,
    ← BitVec.toNat_inj, not_and_or, or_assoc]
  rfl

/-- The model's aspect check is the spec's, where no height is 0 (R133). -/
theorem aspectRejected_iff (s : State) (h : ¬SampleConfigBad s) :
    aspectRejected s.opW s.opH s.opw s.oph = true ↔ AspectBad s := by
  simp only [sampleConfigBad_iff, not_or] at h
  obtain ⟨⟨-, hH, -, hh⟩, -⟩ := h
  exact aspectGateIsExactRatioTest _ _ _ _ (Nat.pos_of_ne_zero hH) (Nat.pos_of_ne_zero hh)

open Classical in
/-- The check of SAMPLE that fails first, in the order of R145 and in the words of the spec. -/
theorem sampleCheck_eq (s : State) : sampleCheck Config.srcBytes s =
    if SampleConfigBad s then some .configError
    else if s.lutValid = false then some .lutNotReady
    else if AspectBad s then some .unsupportedAspect
    else if AllocBad s then some .allocError
    else none := by
  by_cases hc : SampleConfigBad s
  · rw [if_pos hc, sampleCheck]
    obtain h | h | h := (sampleConfigBad_iff s).mp hc
    · rw [if_pos h]
    · rw [if_pos h, ite_self]
    · rw [if_pos h, ite_self, ite_self]
  · have haspect := aspectRejected_iff s hc
    have halloc : (Config.srcBytes < s.opW * s.opH * 3 ∨ frameBytes < s.opw * s.oph * 3) ↔ AllocBad s := Iff.rfl
    rw [if_neg hc]
    rw [sampleConfigBad_iff] at hc
    obtain ⟨hdim, hrest⟩ := not_or.mp hc
    obtain ⟨hfin, hbr⟩ := not_or.mp hrest
    rw [sampleCheck, if_neg hdim, if_neg hfin, if_neg hbr]
    simp only [haspect, halloc]

/-- The model's checks all pass exactly where the spec's do (R131 to R134). -/
theorem sampleCheck_eq_none_iff (s : State) : sampleCheck Config.srcBytes s = none ↔ SampleAccepts s := by
  rw [sampleCheck_eq, SampleAccepts]
  split_ifs <;> simp [*]

theorem sampleWith_result (P : Nat) (s : State) : (sampleWith P s).result = (sampleCheck P s).getD .ok := by
  unfold sampleWith
  cases sampleCheck P s <;> rfl

/-- A command that reports a failing check changes RESULT and BUSY alone (R10). -/
theorem sampleWith_of_result_ne_ok (P : Nat) (s : State) (h : (sampleWith P s).result ≠ .ok) :
    sampleWith P s = s.finish (sampleWith P s).result := by
  unfold sampleWith at h ⊢
  cases hc : sampleCheck P s with
  | none => rw [hc] at h; exact absurd rfl h
  | some code => rfl

/-- Settles O43: the result is the first failing check, and the spec's checks are the model's, one by one. -/
theorem sampleReportsFirstFailingCheck : Obligations.SampleReportsFirstFailingCheck := by
  intro s
  refine ⟨sampleWith Config.srcBytes s, rfl, sampleWith_of_result_ne_ok _ s, ?_, ?_, ?_, ?_, ?_⟩ <;>
    rw [sampleWith_result]
  · intro hc
    rw [sampleCheck_eq, if_pos hc]; rfl
  · intro hc hv
    rw [sampleCheck_eq, if_neg hc, if_pos hv]; rfl
  · intro hc hv ha
    rw [sampleCheck_eq, if_neg hc, if_neg (by simp [hv]), if_pos ha]; rfl
  · intro hc hv ha hb
    rw [sampleCheck_eq, if_neg hc, if_neg (by simp [hv]), if_neg ha, if_pos hb]; rfl
  · intro h
    rw [(sampleCheck_eq_none_iff s).mpr h]; rfl

/-! ## An accepted command -/

theorem execSample_of_accepts (s : State) (h : SampleAccepts s) : execSample s = .next (s.sampled.finish .ok) := by
  obtain ⟨code, hc, -⟩ | ⟨-, e⟩ := execSample_cases s
  · exact absurd (hc.symm.trans ((sampleCheck_eq_none_iff s).mpr h)) (Option.some_ne_none code)
  · exact e

/-- An accepted SAMPLE ends in the sampled state and in no other. -/
theorem eq_sampled_of_accepts (s t : State) (h : SampleAccepts s) (e : exec .sample s = .next t) :
    t = s.sampled.finish .ok := by
  cases (execSample_of_accepts s h).symm.trans e
  rfl

/-- The sizes of an accepted SAMPLE: a source with pixels, and a frame that FRAME holds (R131, R134). -/
theorem sizes_of_accepts (s : State) (h : SampleAccepts s) : 0 < s.opW ∧ 0 < s.opH ∧ s.frameLen ≤ 65535 := by
  obtain ⟨⟨hW, hH, -, -⟩, -, -, -, -, -, hfit⟩ := (sampleCheck_none_iff _ s).mp ((sampleCheck_eq_none_iff s).mpr h)
  exact ⟨Nat.pos_of_ne_zero hW, Nat.pos_of_ne_zero hH, hfit⟩

/-- The factors of an accepted SAMPLE are finite, for every channel (R131). -/
theorem finite_of_accepts (s : State) (h : SampleAccepts s) (c : Fin 3) :
    Finite32 (corrReg s c) ∧ Finite32 s.brightness := by
  obtain ⟨hc, -⟩ := h
  simp only [SampleConfigBad, not_or, not_not] at hc
  obtain ⟨-, -, -, -, hR, hG, hB, hbr, -⟩ := hc
  refine ⟨?_, hbr⟩
  fin_cases c
  · exact hR
  · exact hG
  · exact hB

theorem toNat_ofNat_frameLen (s : State) (h : s.frameLen ≤ 65535) :
    (BitVec.ofNat 32 s.frameLen).toNat = s.frameLen := by
  rw [BitVec.toNat_ofNat, Nat.mod_eq_of_lt (by omega)]

/-- The delay in milliseconds: the floor, or ten times the hundredths, saturated (R143). -/
theorem toNat_resolveDelay (cs : ℤ) (m : Word) :
    ((resolveDelay cs m).toNat : ℤ) = if cs * 10 ≤ 0 then (m.toNat : ℤ) else min (cs * 10) (2 ^ 32 - 1) := by
  rw [resolveDelay]
  split_ifs with h
  · rfl
  · rw [BitVec.toNat_ofNat, Nat.mod_eq_of_lt (by omega)]
    omega

/-- Settles O46: the two registers of the sampled state, neither of which overflows. -/
theorem sampleResolvesDelayAndLength : Obligations.SampleResolvesDelayAndLength := fun s h =>
  ⟨s.sampled.finish .ok, execSample_of_accepts s h, toNat_resolveDelay _ _,
    toNat_ofNat_frameLen s (sizes_of_accepts s h).2.2⟩

/-! ## The frame -/

theorem State.byteAt_of_holds (s : State) (a k : Nat) (b : Byte) (h : Holds s a b) : s.byteAt a k = b := by
  rw [State.byteAt, show Memory.get? s.mem a = some b from h]

theorem State.corr_eq_corrReg (s : State) (c : Fin 3) : s.corr c = corrReg s c := by fin_cases c <;> rfl

/-- An accepted SAMPLE writes FRAME byte k for every k of the frame (R142). -/
theorem holds_sampled (s : State) (k : Nat) (hk : k < s.frameLen) :
    Holds (s.sampled.finish .ok) (Region.frame.base + k) (s.frameByte k) := by
  have hlen : k < ((List.range s.frameLen).map s.frameByte).length := by simpa using hk
  rw [Holds, State.finish_mem, State.sampled_mem, Memory.get?_store_inside _ _ _ _ hlen]
  simp

theorem same_sampled_of_lt_or_ge (s : State) (a : Nat)
    (h : a < Region.frame.base ∨ Region.frame.base + s.frameLen ≤ a) : Same s (s.sampled.finish .ok) a :=
  Memory.get?_store_outside _ _ _ _ (by simpa using h)

/-- A pixel's place in row-major order lies below the number of pixels (R70, R71). -/
theorem pixelIndex_lt (x y w h : Nat) (hx : x < w) (hy : y < h) : y * w + x < w * h :=
  calc y * w + x < y * w + w := Nat.add_lt_add_left hx _
    _ = (y + 1) * w := (Nat.succ_mul y w).symm
    _ ≤ h * w := Nat.mul_le_mul_right w hy
    _ = w * h := Nat.mul_comm h w

/-- The source pixel that matrix pixel p = y × w + x samples (R136). -/
def State.srcPixel (s : State) (p : Nat) : Nat :=
  samplePos s.opH s.oph (p / s.opw) * s.opW + samplePos s.opW s.opw (p % s.opw)

/-- Every matrix pixel samples a pixel of the source (R137). -/
theorem State.srcPixel_lt (s : State) (p : Nat) (hW : 0 < s.opW) (hH : 0 < s.opH) (hp : p < s.opw * s.oph) :
    s.srcPixel p < s.opW * s.opH := by
  have hw : 0 < s.opw := Nat.pos_of_mul_pos_right (Nat.zero_lt_of_lt hp)
  exact pixelIndex_lt _ _ _ _ (samplePos_lt _ _ _ hW (Nat.mod_lt p hw))
    (samplePos_lt _ _ _ hH (Nat.div_lt_of_lt_mul hp))

theorem State.srcPixel_of_coordinates (s : State) (x y : Nat) (hx : x < s.opw) :
    s.srcPixel (y * s.opw + x) = samplePos s.opH s.oph y * s.opW + samplePos s.opW s.opw x := by
  rw [State.srcPixel, Nat.mul_add_mod_of_lt hx, add_comm (y * s.opw), Nat.add_mul_div_right _ _ (by omega),
    Nat.div_eq_of_lt hx, zero_add]

/-- FRAME byte p × 3 + c belongs to channel c (R71). -/
theorem channel_eq (p : Nat) (c : Fin 3) : Fin.ofNat 3 (p * 3 + c.val) = c := by
  ext
  simp only [Fin.val_ofNat]
  omega

/-- FRAME byte p × 3 + c reads byte c of the source pixel (R130). -/
theorem State.sampledByte_pixel (s : State) (p : Nat) (c : Fin 3) :
    s.sampledByte (p * 3 + c.val) = s.byteAt (Region.src.base + s.srcPixel p * 3 + c.val) (p * 3 + c.val) := by
  have hp : (p * 3 + c.val) / 3 = p := by omega
  rw [State.sampledByte, hp, channel_eq, State.srcOffset, ← State.srcPixel, ← add_assoc]

/-- FRAME byte p × 3 + c, where the source byte and the LUT entry that it reads have been written (R138 to R142). -/
theorem State.frameByte_of_holds (s : State) (p : Nat) (c : Fin 3) (v out : Byte)
    (hv : Holds s (Region.src.base + s.srcPixel p * 3 + c.val) v)
    (hout : Holds s (lutAddr c (stage2 (stage1 v.toNat (corrReg s c)) s.brightness)) out) :
    s.frameByte (p * 3 + c.val) = out := by
  have hix : s.lutIndex (p * 3 + c.val) = stage2 (stage1 v.toNat (corrReg s c)) s.brightness := by
    rw [State.lutIndex, State.sampledByte_pixel, s.byteAt_of_holds _ _ v hv, channel_eq, State.corr_eq_corrReg]
  rw [State.frameByte, channel_eq, hix]
  exact s.byteAt_of_holds _ _ out hout

/-- Channel c of matrix pixel p after an accepted SAMPLE (R138 to R142). -/
theorem holds_sampled_pixel (s : State) (p : Nat) (c : Fin 3) (v out : Byte) (hp : p < s.opw * s.oph)
    (hv : Holds s (Region.src.base + s.srcPixel p * 3 + c.val) v)
    (hout : Holds s (lutAddr c (stage2 (stage1 v.toNat (corrReg s c)) s.brightness)) out) :
    Holds (s.sampled.finish .ok) (Region.frame.base + p * 3 + c.val) out := by
  rw [← s.frameByte_of_holds p c v out hv hout, add_assoc]
  exact holds_sampled s _ (by rw [State.frameLen]; omega)

/-- The LUT index that an accepted SAMPLE forms is both exact stages of the spec (R139, R140). -/
theorem stage2_stage1_eq_stage (s : State) (h : SampleAccepts s) (c : Fin 3) (v : Nat) :
    stage2 (stage1 v (corrReg s c)) s.brightness = (stage (stage v (corrReg s c)) s.brightness).toNat := by
  obtain ⟨hcorr, hbr⟩ := finite_of_accepts s h c
  rw [← stage1_eq_stage v _ hcorr, ← stage2_eq_stage _ _ hbr, Int.toNat_natCast]

/-- Channel c of matrix pixel (x, y) after an accepted SAMPLE, in the words of the spec (R136 to R142). -/
theorem holds_sampled_coordinates (s : State) (h : SampleAccepts s) (x y : Nat) (c : Fin 3) (v out : Byte)
    (hx : x < s.opw) (hy : y < s.oph)
    (hv : Holds s (Region.src.base
      + (samplePos s.opH s.oph y * s.opW + samplePos s.opW s.opw x) * 3 + c.val) v)
    (hout : Holds s (lutAddr c (stage (stage v.toNat (corrReg s c)) s.brightness).toNat) out) :
    Holds (s.sampled.finish .ok) (Region.frame.base + (y * s.opw + x) * 3 + c.val) out := by
  rw [← s.srcPixel_of_coordinates x y hx] at hv
  rw [← stage2_stage1_eq_stage s h] at hout
  exact holds_sampled_pixel s _ c v out (pixelIndex_lt x y _ _ hx hy) hv hout

/-- Settles O45: the state after an accepted SAMPLE is known in full. -/
theorem sampleProducesFrame : Obligations.SampleProducesFrame := fun s h =>
  ⟨s.sampled.finish .ok, execSample_of_accepts s h, holds_sampled_coordinates s h,
    fun k hk => ⟨s.frameByte k, holds_sampled s k hk⟩, same_sampled_of_lt_or_ge s, rfl⟩

/-! ## What follows -/

/-- Settles O48: both runs read the same byte of channel c at every pixel, and the same entry of LUT c for it. -/
theorem channelsDoNotMix : Obligations.ChannelsDoNotMix := by
  intro s s' t t' c hs hs' hW hH hw hh hbr hcorr hsrc hlut e e' p hp
  obtain ⟨hWpos, hHpos, -⟩ := sizes_of_accepts s hs
  obtain ⟨v, hv, hv'⟩ := hsrc (s.srcPixel p) (s.srcPixel_lt p hWpos hHpos hp)
  obtain ⟨out, hout, hout'⟩ := hlut (stage2 (stage1 v.toNat (corrReg s c)) s.brightness)
    (Nat.lt_succ_of_le (stage2_le _ _))
  have hpixel : s'.srcPixel p = s.srcPixel p := by
    simp only [State.srcPixel, State.opW, State.opH, State.opw, State.oph, hW, hH, hw, hh]
  have hframe := holds_sampled_pixel s p c v out hp hv hout
  have hframe' := holds_sampled_pixel s' p c v out (by rwa [State.opw, State.oph, hw, hh]) (by rwa [hpixel])
    (by rwa [hcorr, hbr])
  rw [eq_sampled_of_accepts s t hs e, eq_sampled_of_accepts s' t' hs' e']
  exact Eq.trans hframe' hframe.symm

/-- Settles O49: both stages with the factor 1.0 keep the byte, and the LUT gives it back. -/
theorem colourPipelineIdentity : Obligations.ColourPipelineIdentity := by
  intro s t h hbr hcorr hlut e x y c v hx hy hv
  have hle : v.toNat ≤ 255 := Nat.le_of_lt_succ v.isLt
  have hstages : (stage (stage v.toNat (corrReg s c)) s.brightness).toNat = v.toNat := by
    rw [hbr, hcorr, stage_pattern_one _ hle, stage_pattern_one _ hle, Int.toNat_natCast]
  have hentry := hlut c v.toNat v.isLt
  rw [BitVec.ofNat_toNat, BitVec.setWidth_eq] at hentry
  rw [eq_sampled_of_accepts s t h e]
  exact holds_sampled_coordinates s h x y c v v hx hy hv (by rwa [hstages])

/-- ENCODE carries each written byte of the frame unmodified behind the header (R173). -/
theorem holds_encoded_payload (s : State) (k : Nat) (b : Byte) (hk : k < s.opL)
    (hb : Holds s (Region.frame.base + k) b) :
    Holds (s.encoded.finish .ok) (Region.pkt.base + 10 + k) b := by
  have hlen : 10 + k < s.packet.length := by rw [State.packet_length]; omega
  have hbyte : s.packet[10 + k] = b := by
    simp only [State.packet]
    rw [List.getElem_append_right (by simp)]
    simpa using s.byteAt_of_holds _ k b hb
  rw [add_assoc, ← hbyte]
  exact Memory.get?_store_inside _ _ _ _ hlen

theorem execEncode_of_le (s : State) (h : s.opL ≤ 65535) : execEncode s = .next (s.encoded.finish .ok) := by
  obtain ⟨hlong, -⟩ | ⟨-, e⟩ := execEncode_cases s
  · exact absurd h hlong.not_ge
  · exact e

/-- Settles O52: PAYLOAD_LEN is the frame's length, which ENCODE accepts, and SAMPLE has written the whole frame. -/
theorem sampledFrameIsEncodable : Obligations.SampledFrameIsEncodable := by
  intro s t h e
  obtain rfl := eq_sampled_of_accepts s t h e
  obtain ⟨-, -, hfit⟩ := sizes_of_accepts s h
  have hL : (s.sampled.finish .ok).opL = s.frameLen := toNat_ofNat_frameLen s hfit
  refine ⟨_, execEncode_of_le _ (hL.trans_le hfit), rfl, ?_, fun k hk => ?_⟩
  · rw [State.finish_pktLen, toNat_encoded_pktLen _ (hL.trans_le hfit), hL]
    rfl
  · have hframe := holds_sampled s k hk
    exact (holds_encoded_payload _ k _ (hk.trans_eq hL.symm) hframe).trans hframe.symm

end Sys2Proof.Machine
end

section
/-!
ENCODE (spec/42_encode.md R170 to R175): the rejected payload length, and all that an accepted command writes.
-/

namespace Sys2Proof.Machine

open Sys2Proof.Claims

theorem execEncode_of_lt (s : State) (h : 65535 < s.opL) : execEncode s = .next (s.finish .payloadTooLarge) := by
  obtain ⟨-, e⟩ | ⟨hshort, -⟩ := execEncode_cases s
  · exact e
  · exact absurd h hshort.not_gt

/-- An accepted ENCODE writes the header and every payload byte: PKT_LEN is not 0, so its packet is sound, and PKT_LEN
says that the length in the header is PAYLOAD_LEN (R172, R173). -/
theorem holds_encoded_header_and_packet (s : State) (h : s.opL ≤ 65535) :
    (∀ (k : Nat) (hk : k < 10), Holds (s.encoded.finish .ok) (Region.pkt.base + k) ((header s.opL)[k]'hk))
      ∧ ∀ k, k < 10 + s.opL → ∃ b, Holds (s.encoded.finish .ok) (Region.pkt.base + k) b := by
  have hlen : (s.encoded.finish .ok).pktLen.toNat = 10 + s.opL := toNat_encoded_pktLen s h
  have hne : (s.encoded.finish .ok).pktLen ≠ 0 := fun h0 => by
    have hzero : 0 = 10 + s.opL := (congrArg BitVec.toNat h0).symm.trans hlen
    omega
  obtain ⟨L, -, hL, hheader, hwritten⟩ := packetSound_encoded s h hne
  obtain rfl : L = s.opL := Nat.add_left_cancel (hL.symm.trans hlen)
  exact ⟨hheader, hwritten⟩

/-- An accepted ENCODE leaves every byte outside the packet alone (R173). -/
theorem same_encoded_of_lt_or_ge (s : State) (a : Nat)
    (h : a < Region.pkt.base ∨ Region.pkt.base + 10 + s.opL ≤ a) : Same s (s.encoded.finish .ok) a :=
  Memory.get?_store_outside _ _ _ _ (by rwa [State.packet_length, ← add_assoc])

/-- Settles O51: the state after an accepted ENCODE is known in full. -/
theorem encodeWritesPacket : Obligations.EncodeWritesPacket := fun s h =>
  have ⟨hheader, hwritten⟩ := holds_encoded_header_and_packet s h
  ⟨s.encoded.finish .ok, execEncode_of_le s h, hheader, holds_encoded_payload s, hwritten,
    same_encoded_of_lt_or_ge s, toNat_encoded_pktLen s h, rfl⟩

/-- Settles O50: the length check is the only one, and failing it changes RESULT and BUSY alone. -/
theorem encodeRejectsLongPayload : Obligations.EncodeRejectsLongPayload := fun s =>
  ⟨execEncode_of_lt s, fun h => ⟨_, execEncode_of_le s h, rfl⟩⟩

end Sys2Proof.Machine
end

section
/-!
NOP, SOFT_RESET and the illegal words (spec/43_control.md R190 to R194).
-/

namespace Sys2Proof.Machine

open Sys2Proof.Claims

/-- After SOFT_RESET the host reads in every control register what it reads there after a hardware reset (R192). -/
theorem csrRead_softReset (s : State) (r : Csr) :
    (s.resetRegisters.finish .ok).csrRead r = State.reset.csrRead r := by cases r <;> rfl

/-- Settles O34: the registers read as in the reset state, and completing the command keeps the rest. -/
theorem softResetEffect : Obligations.SoftResetEffect := fun s =>
  ⟨s.resetRegisters.finish .ok, rfl, fun r => (csrRead_softReset s r).trans (resetRegisterValues r),
    rfl, rfl, rfl, rfl, rfl, rfl, rfl, rfl, rfl, rfl⟩

/-- Settles O6: a word that decodes is the word of its command, so this one is rejected. -/
theorem stepPerformsIllegalWord : Obligations.StepPerformsIllegalWord := by
  intro s hturn hword
  rw [step_of_turn s hturn]
  cases hd : decode s.pending with
  | ok i => exact absurd (eq_encode_of_decode _ i hd) (hword i)
  | error e => exact engineStep_of_reject s e hd

/-- Settles O35: NOP's word is 0, and NOP only completes. -/
theorem nopEffect : Obligations.NopEffect := ⟨decode_encode .nop, fun _ => rfl⟩

end Sys2Proof.Machine
end

section
/-!
No command traps (spec/60_exceptions.md R200): how a command ends, and the CMD write that comes after it.
-/

namespace Sys2Proof.Machine

open Sys2Proof.Claims

/-- Every command completes with a code, and one other than OK is all that it reports (R10, R200). -/
theorem exec_completes (i : Instr) (s : State) :
    ∃ (u : State) (code : ResultCode), exec i s = .next (u.finish code) ∧ (code ≠ .ok → u = s) := by
  cases i with
  | nop => exact ⟨s, .ok, rfl, fun _ => rfl⟩
  | softReset => exact ⟨s.resetRegisters, .ok, rfl, fun h => absurd rfl h⟩
  | gammaBuild =>
    obtain ⟨-, e⟩ | ⟨-, -, e⟩ | ⟨-, -, e⟩ := execGammaBuild_cases s
    · exact ⟨s, _, e, fun _ => rfl⟩
    · exact ⟨s, _, e, fun _ => rfl⟩
    · exact ⟨_, .ok, e, fun h => absurd rfl h⟩
  | sample =>
    obtain ⟨code, -, e⟩ | ⟨-, e⟩ := execSample_cases s
    · exact ⟨s, code, e, fun _ => rfl⟩
    · exact ⟨_, .ok, e, fun h => absurd rfl h⟩
  | encode =>
    obtain ⟨-, e⟩ | ⟨-, e⟩ := execEncode_cases s
    · exact ⟨s, _, e, fun _ => rfl⟩
    · exact ⟨_, .ok, e, fun h => absurd rfl h⟩

theorem step_goesOn (s : State) : GoesOn (step s) := by
  cases hturn : s.engineTurn with
  | true =>
    obtain ⟨t, e, -⟩ := engineStep_completes s
    exact ⟨t, (step_of_turn s hturn).trans e⟩
  | false => exact ⟨inputStep s, step_of_not_turn s hturn⟩

/-- Settles O8: a command ends with a code, and the block is idle after it, so the next CMD write is accepted. -/
theorem commandsNeverTrap : Obligations.CommandsNeverTrap := by
  refine ⟨step_goesOn, fun i s t h => ?_, fun s t h => ?_⟩
  · obtain ⟨u, code, e, hframe⟩ := exec_completes i s
    cases e.symm.trans h
    exact ⟨rfl, fun hne => congrArg (State.finish · code) (hframe hne)⟩
  · obtain ⟨t', e, hidle⟩ := engineStep_completes s
    cases e.symm.trans h
    refine ⟨hidle, fun d => ?_⟩
    obtain ⟨-, haccepted, -⟩ := cmdWriteStartsCommand t d
    obtain ⟨u, hw, hu⟩ := haccepted hidle
    exact ⟨u, hw, congrArg State.pending hu, congrArg State.busy hu⟩

end Sys2Proof.Machine
end

section
/-!
The playback driver (spec/60_exceptions.md R217 to R222): its byte transactions with an idle block, the packet of one
tick, and the driver and the output after any number of ticks.
-/

namespace Sys2Proof.Machine

open Sys2Proof.Claims

/-! ## Byte transactions -/

section

variable {r : Region} {a : Nat} (hr : r ≠ .csr) (hlo : r.base ≤ a) (hhi : a + 1 ≤ r.base + r.size)
include hr hlo hhi

/-- Every address of a region fits the 32 bits of a transaction's address (R67). -/
theorem toNat_ofNat_of_region : (BitVec.ofNat 32 a).toNat = a := by
  have := Config.srcBytes_bounds
  have hend : r.base + r.size < 2 ^ 32 := by
    cases r <;> simp only [Region.base, Region.size, frameBytes, pktBytes] <;> omega
  rw [BitVec.toNat_ofNat, Nat.mod_eq_of_lt (by omega)]

/-- A 1-byte transaction in a buffer reaches that buffer, where it is a read or the buffer may be written (R61). -/
theorem target_byte (w : Bool) (hw : (w && r.readOnly) = false) :
    target (BitVec.ofNat 32 a) 1 w = some (.bytes r) := by
  have haddr := toNat_ofNat_of_region hr hlo hhi
  rw [target_of_buffer _ 1 w r (.inl rfl) (Nat.mod_one _) hr
    ((Region.contains_iff _ _ _).mpr (by rw [haddr]; exact ⟨hlo, hhi⟩)), hw, if_neg Bool.false_ne_true]

/-- `WR8` of an idle block stores the byte (R62). -/
theorem hostWrite_byte (s : State) (b : Byte) (hb : s.busy = false) (hw : r.readOnly = false) :
    (hostWrite s (BitVec.ofNat 32 a) 1 (b.setWidth 32)).1 = s.storeAt a [b] := by
  rw [hostWrite_of_target_bytes s _ 1 _ r (target_byte hr hlo hhi true (by rw [hw]; rfl)), hb,
    if_neg Bool.false_ne_true, toNat_ofNat_of_region hr hlo hhi, bytesOfWord_setWidth]

/-- `RD8` of an idle block answers the byte held there (R65). -/
theorem hostRead_byte (s : State) (b : Byte) (hb : s.busy = false) (h : Holds s a b) :
    hostRead s (BitVec.ofNat 32 a) 1 = (s.draw 1, ⟨.ok, some (b.setWidth 32)⟩) := by
  have hbyte : s.hostByte r a 0 = b := (s.hostByte_of_idle r a 0 hb).trans (s.byteAt_of_holds a 0 b h)
  have hword : wordOfBytes [b] = b.setWidth 32 := by
    rw [wordOfBytes, List.foldr_cons, List.foldr_nil, Nat.mul_zero, Nat.add_zero, BitVec.ofNat_toNat]
  rw [hostRead_of_target_bytes s _ 1 r (target_byte hr hlo hhi false rfl), toNat_ofNat_of_region hr hlo hhi, ← hword,
    ← hbyte]
  rfl

end

/-- The bytes of `putBytes` lie in FRAME or SRC from `base` upwards, and the block stays idle (R62). -/
theorem putBytes_loaded {r : Region} (hr : r = .frame ∨ r = .src) (s : State) (base : Nat) (bs : List Byte)
    (hb : s.busy = false) (hlo : r.base ≤ base) (hhi : base + bs.length ≤ r.base + r.size) :
    (putBytes s base bs).busy = false ∧ Loaded s (putBytes s base bs) base bs := by
  induction bs generalizing s base with
  | nil => exact ⟨hb, .refl s base⟩
  | cons b bs ih =>
    rw [List.length_cons] at hhi
    have hfirst : (hostWrite s (BitVec.ofNat 32 base) 1 (b.setWidth 32)).1 = s.storeAt base [b] :=
      hostWrite_byte (by rintro rfl; simp at hr) hlo (by omega) s b hb (by obtain rfl | rfl := hr <;> rfl)
    obtain ⟨hidle, hrest⟩ := ih (s.storeAt base [b]) (base + 1) hb (by omega) (by omega)
    have hload : Loaded s (s.storeAt base [b]) base [b] := fun _ => rfl
    rw [putBytes, hfirst]
    exact ⟨hidle, hload.trans hrest⟩

/-- `takeBytes` from an idle block answers the bytes held there, and the block stays idle (R65). -/
theorem takeBytes_of_holds {r : Region} (hr : r ≠ .csr) (s : State) (base : Nat) (bs : List Byte)
    (hb : s.busy = false) (hlo : r.base ≤ base) (hhi : base + bs.length ≤ r.base + r.size)
    (h : ∀ (k : Nat) (hk : k < bs.length), Holds s (base + k) bs[k]) :
    ∃ s', takeBytes s base bs.length = (s', bs) ∧ s'.busy = false := by
  induction bs generalizing s base with
  | nil => exact ⟨s, rfl, hb⟩
  | cons b bs ih =>
    rw [List.length_cons] at hhi
    have hfirst := hostRead_byte hr hlo (by omega) s b hb (h 0 (Nat.succ_pos _))
    obtain ⟨s', hrest, hidle⟩ := ih (s.draw 1) (base + 1) hb (by omega) (by omega) fun k hk => by
      rw [Nat.add_assoc, Nat.add_comm 1]
      exact h (k + 1) (Nat.succ_lt_succ hk)
    refine ⟨s', ?_, hidle⟩
    simp [takeBytes, hfirst, hrest]

/-! ## One packet -/

/-- The packet of a stored frame: the header and the frame's bytes (R172, R173). -/
def StoredFrame.packet (f : StoredFrame) : List Byte := header f.pixels.length ++ f.pixels

/-- A register write of the host to an idle block (R45). -/
theorem putCsr_of_idle (s : State) (r : Csr) (d : Word) (hb : s.busy = false) (hst : r ≠ .status) (hcmd : r ≠ .cmd) :
    putCsr s r d = s.csrWrite r d := by
  rw [putCsr, hostWrite_of_target_register s _ 4 d r (target_csr r true) hst hcmd, hb, if_neg Bool.false_ne_true]

/-- `RUN` on an idle block performs the command on the accepted state (R97). -/
theorem runCommand_of_exec (s t : State) (i : Instr) (hb : s.busy = false)
    (h : exec i (s.accept (Sys2Proof.encode i)) = .next t) : runCommand s i = t := by
  have hcmd : putCsr s .cmd (Sys2Proof.encode i) = s.accept (Sys2Proof.encode i) := by
    rw [putCsr, hostWrite_of_target_cmd s _ 4 _ (target_csr .cmd true), hb, if_neg Bool.false_ne_true]
  rw [runCommand, hcmd, engineStep_of_decode _ i (decode_encode i), h]

/-- Where FRAME holds the payload, ENCODE forms the header and exactly that payload (R172, R173). -/
theorem State.packet_of_holds (s : State) (bs : List Byte) (hL : s.opL = bs.length)
    (h : ∀ (k : Nat) (hk : k < bs.length), Holds s (Region.frame.base + k) bs[k]) :
    s.packet = header bs.length ++ bs := by
  have hlen : s.payloadLen.toNat = bs.length := hL
  rw [State.packet, ddpHeader_eq_header, hlen, hL]
  congr 1
  refine List.ext_getElem (by simp) fun k _ hk => ?_
  simpa using s.byteAt_of_holds _ k _ (h k hk)

/-- Encoding a stored frame on an idle block leaves its packet in PKT (R218). -/
theorem encodeStored_holds_packet (s : State) (f : StoredFrame) (hb : s.busy = false)
    (hf : f.pixels.length ≤ 65535) :
    (encodeStored s f).busy = false ∧ (encodeStored s f).result = .ok
      ∧ (encodeStored s f).pktLen.toNat = f.packet.length
      ∧ ∀ (k : Nat) (hk : k < f.packet.length), Holds (encodeStored s f) (Region.pkt.base + k) f.packet[k] := by
  obtain ⟨hidle, hload⟩ := putBytes_loaded (.inl rfl) s Region.frame.base f.pixels hb le_rfl
    (Nat.add_le_add_left hf _)
  set u := (putBytes s Region.frame.base f.pixels).csrWrite .payloadLen (BitVec.ofNat 32 f.pixels.length) with hu
  set v := u.accept (Sys2Proof.encode .encode)
  have hL : v.opL = f.pixels.length := by
    rw [State.opL, State.accept_payloadLen, hu, State.csrWrite, BitVec.toNat_ofNat, Nat.mod_eq_of_lt (by omega)]
  have he : encodeStored s f = v.encoded.finish .ok := by
    rw [encodeStored, putCsr_of_idle _ _ _ hidle (by decide) (by decide)]
    exact runCommand_of_exec u _ .encode hidle (execEncode_of_le v (hL.trans_le hf))
  have hpkt : v.packet = f.packet := v.packet_of_holds f.pixels hL hload.holds
  have hlen : v.encoded.pktLen.toNat = v.packet.length :=
    (toNat_encoded_pktLen v (hL.trans_le hf)).trans v.packet_length.symm
  rw [he, ← hpkt]
  exact ⟨rfl, rfl, hlen, fun k hk => Memory.get?_store_inside _ _ _ k hk⟩

/-- A packet fits PKT (R43). -/
theorem StoredFrame.packet_length_le (f : StoredFrame) (hf : f.pixels.length ≤ 65535) :
    f.packet.length ≤ Region.pkt.size := by
  rw [StoredFrame.packet, List.length_append]
  exact Nat.add_le_add_left hf 10

/-! ## One tick -/

/-- A tick that plays a frame on an idle block emits the frame's packet and goes on (R218). -/
theorem Playback.tick_of_playing (p : Playback) (s : State) (f : StoredFrame) (hb : s.busy = false)
    (hstate : p.state = .playing) (htarget : p.targetReached = false) (hget : p.frames[p.index]? = some f)
    (hf : f.pixels.length ≤ 65535) :
    ∃ s', p.tick s true = ⟨p.advance, s', some f.packet, some f.delayMs⟩ ∧ s'.busy = false := by
  obtain ⟨hidle, hok, hlen, hholds⟩ := encodeStored_holds_packet s f hb hf
  obtain ⟨s', htake, hidle'⟩ := takeBytes_of_holds (r := .pkt) (by decide) (encodeStored s f) _ f.packet hidle le_rfl
    (Nat.add_le_add_left (f.packet_length_le hf) _) hholds
  refine ⟨s', ?_, hidle'⟩
  simp [Playback.tick, hstate, htarget, hget, hok, hlen, htake]

/-- The tick at which the bounded target is reached completes the playback (R219). -/
theorem Playback.tick_of_targetReached (p : Playback) (s : State) (ok : Bool) (hstate : p.state = .playing)
    (htarget : p.targetReached = true) : p.tick s ok = ⟨{ p with state := .completed }, s, none, none⟩ := by
  simp [Playback.tick, hstate, htarget]

/-! ## Many ticks -/

theorem Playback.play_one (p : Playback) (s : State) :
    p.play s 1 = ((p.tick s true).host, (p.tick s true).block, (p.tick s true).packet.toList) := by
  simp [Playback.play]

/-- m + n ticks are m ticks and then n ticks, their outputs one after the other (R221). -/
theorem Playback.play_add {p p' p'' : Playback} {s s' s'' : State} {out out' : List (List Byte)} {m n : Nat}
    (h : p.play s m = (p', s', out)) (h' : p'.play s' n = (p'', s'', out')) :
    p.play s (m + n) = (p'', s'', out ++ out') := by
  induction m generalizing p s out with
  | zero =>
    cases h
    rwa [Nat.zero_add]
  | succ m ih =>
    cases hplay : (p.tick s true).host.play (p.tick s true).block m with
    | mk q rest =>
      simp only [Playback.play, hplay, Prod.mk.injEq] at h
      obtain ⟨rfl, rfl, rfl⟩ := h
      rw [Nat.succ_add]
      simp only [Playback.play, ih hplay, List.append_assoc]

/-- The driver after k ticks that each played a frame (R217, R218). -/
def Playback.after (frames : List StoredFrame) (target : ℤ) (k : Nat) : Playback :=
  ⟨frames, target, .playing, k % frames.length, k / frames.length⟩

theorem Playback.after_zero (frames : List StoredFrame) (target : ℤ) :
    Playback.after frames target 0 = Playback.start frames target := by
  simp [Playback.after, Playback.start]

theorem Playback.advance_of_last (p : Playback) (h : p.index + 1 = p.frames.length) :
    p.advance = { p with index := 0, loops := p.loops + 1 } := if_pos h

theorem Playback.advance_of_not_last (p : Playback) (h : p.index + 1 ≠ p.frames.length) :
    p.advance = { p with index := p.index + 1 } := if_neg h

/-- The index wraps at the last frame, and the loop is counted there (R218). -/
theorem Playback.advance_after (frames : List StoredFrame) (target : ℤ) (k : Nat) (hN : 0 < frames.length) :
    (Playback.after frames target k).advance = Playback.after frames target (k + 1) := by
  have hlt := Nat.mod_lt k hN
  have hk := Nat.mod_add_div k frames.length
  by_cases hwrap : k % frames.length + 1 = frames.length
  · obtain ⟨hdiv, hmod⟩ := (Nat.div_mod_unique (a := k + 1) (c := 0) (d := k / frames.length + 1) hN).mpr
      ⟨by rw [Nat.mul_succ]; omega, hN⟩
    rw [Playback.advance_of_last _ hwrap]
    simp only [Playback.after, hdiv, hmod]
  · obtain ⟨hdiv, hmod⟩ := (Nat.div_mod_unique (a := k + 1) (c := k % frames.length + 1)
      (d := k / frames.length) hN).mpr ⟨by omega, by omega⟩
    rw [Playback.advance_of_not_last _ hwrap]
    simp only [Playback.after, hdiv, hmod]

theorem Playback.targetReached_after_iff (frames : List StoredFrame) (target : ℤ) (k : Nat) :
    (Playback.after frames target k).targetReached = true ↔ 0 ≤ target ∧ ((k / frames.length : ℕ) : ℤ) = target :=
  decide_eq_true_iff

/-- An unbounded playback, and a bounded one with frames left to play, has not reached its target (R219). -/
theorem Playback.targetReached_after_of_lt (frames : List StoredFrame) (target : ℤ) (k : Nat)
    (h : target = -1 ∨ (k : ℤ) < target * frames.length) :
    (Playback.after frames target k).targetReached = false := by
  rw [← Bool.not_eq_true, Playback.targetReached_after_iff]
  rintro ⟨h0, htarget⟩
  obtain rfl | h := h
  · omega
  · rw [← htarget] at h
    have := Nat.div_mul_le_self k frames.length
    omega

section

variable (frames : List StoredFrame) (hN : 0 < frames.length)

/-- The j-th packet of the output: that of frame j mod N (R222). -/
def packetAt (j : Nat) : List Byte := (frames[j % frames.length]'(Nat.mod_lt j hN)).packet

/-- k ticks on an idle block, with a target that none of them reaches: k packets, and the driver that has played k
frames (R218, R222). -/
theorem play_start (target : ℤ) (s : State) (k : Nat) (hb : s.busy = false)
    (hlen : ∀ f ∈ frames, f.pixels.length ≤ 65535) (htarget : target = -1 ∨ (k : ℤ) ≤ target * frames.length) :
    ∃ s', (Playback.start frames target).play s k
        = (Playback.after frames target k, s', (List.range k).map (packetAt frames hN)) ∧ s'.busy = false := by
  induction k with
  | zero => exact ⟨s, by rw [Playback.after_zero]; rfl, hb⟩
  | succ k ih =>
    obtain ⟨s', hplay, hidle⟩ := ih (htarget.imp_right fun h => by omega)
    obtain ⟨s'', htick, hidle'⟩ := (Playback.after frames target k).tick_of_playing s' _ hidle rfl
      (Playback.targetReached_after_of_lt frames target k (htarget.imp_right fun h => by omega))
      (List.getElem?_eq_getElem (Nat.mod_lt k hN)) (hlen _ (List.getElem_mem _))
    refine ⟨s'', ?_, hidle'⟩
    rw [Playback.play_add hplay (Playback.play_one _ _), htick, Playback.advance_after frames target k hN,
      List.range_succ, List.map_append]
    rfl

/-- The packets of T loops are the N packets T times over (R222). -/
theorem map_packetAt_range_mul (T : Nat) : (List.range (T * frames.length)).map (packetAt frames hN)
    = (List.replicate T (frames.map StoredFrame.packet)).flatten := by
  induction T with
  | zero => simp
  | succ T ih =>
    have hloop : (List.range frames.length).map (packetAt frames hN ∘ (T * frames.length + ·))
        = frames.map StoredFrame.packet := by
      refine List.ext_getElem (by simp) fun j hj _ => ?_
      simp only [List.length_map, List.length_range] at hj
      simp [packetAt, Nat.mul_add_mod_of_lt hj]
    rw [Nat.succ_mul, List.range_add, List.map_append, ih, List.map_map, hloop, List.replicate_succ',
      List.flatten_append, List.flatten_singleton]

end

/-- Settles O53: the driver after k ticks is known in full. -/
theorem playbackAdvances : Obligations.PlaybackAdvances := by
  intro s frames target k hb hN hlen htarget
  obtain ⟨s', hplay, -⟩ := play_start frames hN target s k hb hlen htarget
  refine ⟨s', _, hplay, rfl, rfl, rfl, ?_⟩
  rintro rfl
  exact ⟨Nat.mul_mod_left _ _, Nat.mul_div_cancel 3 hN⟩

/-- Settles O54: T × N ticks emit the packets, and the next tick finds the target reached. -/
theorem playbackEmitsFramesInOrder : Obligations.PlaybackEmitsFramesInOrder := by
  intro s frames T hb hne hlen
  have hN := List.length_pos_iff.mpr hne
  obtain ⟨s', hplay, -⟩ := play_start frames hN T s (T * frames.length) hb hlen (.inr (by push_cast; rfl))
  have hreached : (Playback.after frames T (T * frames.length)).targetReached = true :=
    (Playback.targetReached_after_iff _ _ _).mpr ⟨Int.natCast_nonneg T, by rw [Nat.mul_div_cancel T hN]⟩
  rw [Playback.play_add hplay (Playback.play_one _ _), Playback.tick_of_targetReached _ s' true rfl hreached,
    Option.toList_none, List.append_nil, map_packetAt_range_mul]
  exact ⟨s', _, rfl, rfl⟩

end Sys2Proof.Machine
end

section
/-!
Reset and hazards (spec/70_reset_and_hazards.md R240, R252): the state after a hardware reset, and the bound on the
time that BUSY stays 1 when the inputs may hold a reset.
-/

namespace Sys2Proof.Machine

open Sys2Proof.Claims

/-- Settles O10: no byte is listed, and LUT_VALID = 0 asks for no entry. -/
theorem resetSatisfiesInv : Obligations.ResetSatisfiesInv where
  canonical := State.reset_mem_wf
  mapped _ hc := absurd hc List.not_mem_nil
  lutBuilt hv := absurd hv Bool.false_ne_true

/-- After a hardware reset the host reads in every control register what it reads in the reset state (R240). -/
theorem csrRead_hardReset (s : State) (r : Csr) : s.hardReset.csrRead r = State.reset.csrRead r := by cases r <;> rfl

/-- Settles O33: the step takes the reset input, and the registers read as in the reset state. -/
theorem hardwareReset : Obligations.HardwareReset := by
  intro s rest hturn hin
  have hstep : step s = .next (s.take rest).hardReset := by rw [step_of_not_turn s hturn, inputStep, hin]
  exact ⟨_, hstep, fun r => (csrRead_hardReset _ r).trans (resetRegisterValues r), rfl, rfl, rfl, rfl,
    fun a => Memory.get?_nil a, rfl, rfl⟩

/-- While BUSY = 1 every input taken, a reset too, leaves the engine at least one input less to wait for. -/
theorem engineWait_inputStep_le (s : State) (hb : s.busy = true) (hne : s.inputs ≠ []) :
    (inputStep s).engineWait ≤ s.engineWait - 1 := by
  obtain ⟨h, -⟩ | ⟨a, n, rest, -, e⟩ | ⟨a, n, d, rest, -, e⟩ | ⟨rest, -, e⟩ | ⟨rest, -, e⟩ := inputStep_cases s
  · exact absurd h hne
  · simp [e]
  · rw [e]
    exact (hostWrite_engineWait_of_busy (s.take rest) a n d hb).le
  · simp [e]
  · simp [e]

/-- Settles O18: by induction on the number of inputs that the engine waits for. The engine's step clears BUSY; an input
taken before it is a reset, which clears BUSY too, or leaves a shorter wait. -/
theorem busyFallsWithinBound : Obligations.BusyFallsWithinBound := by
  intro s hb
  induction hw : s.engineWait using Nat.strong_induction_on generalizing s with
  | _ w ih =>
    cases hturn : s.engineTurn with
    | true =>
      obtain ⟨t, e, hidle⟩ := engineStep_completes s
      exact ⟨1, t, by omega, core_run_succ 0 s t ((step_of_turn s hturn).trans e), hidle⟩
    | false =>
      have hsucc (k : Nat) := core_run_succ k s _ (step_of_not_turn s hturn)
      cases hb' : (inputStep s).busy with
      | false => exact ⟨1, inputStep s, by omega, hsucc 0, hb'⟩
      | true =>
        obtain ⟨hwait, hne⟩ := (engineTurn_eq_false_iff s hb).mp hturn
        have hless := engineWait_inputStep_le s hb hne
        obtain ⟨k, t, hk, hrun, hidle⟩ := ih _ (by omega) (inputStep s) hb' rfl
        exact ⟨k + 1, t, by omega, (hsucc k).trans hrun, hidle⟩

end Sys2Proof.Machine
end
